-- ==== Sys2Proof/Word.lean ====
section
/-! DEFINITION. The widths of the S3-MATRIX display controller's values (00_scope.md R6, 20_memory.md R45).
Bit 0 is the least significant bit of a word (R7). -/

namespace Sys2Proof

/-- An 8-bit unsigned value: a colour channel, a brightness, an intensity, a raw byte of a word. -/
abbrev Byte := BitVec 8

/-- A 24-bit packed colour `0xRRGGBB` (10_state.md R20, 20_memory.md R42). Every value is legal. -/
abbrev Color := BitVec 24

/-- A command word of the one format `CMD64` (30_encoding.md R60). -/
abbrev CmdWord := BitVec 64

/-- A response word (10_state.md R26). -/
abbrev RespWord := BitVec 32

/-- A logical output channel, 0..191 (10_state.md R22, R27; 47_pwm_mux.md R183). -/
abbrev ChannelId := Fin 192

/-- A colour component: 0 red, 1 green, 2 blue (47_pwm_mux.md R183). -/
abbrev Component := Fin 3

/-- One channel write: the channel and its 8-bit intensity (10_state.md R27). -/
abbrev ChannelWrite := ChannelId × Byte

/-- A coordinate (x, y) over the integers (00_scope.md R8, R10). -/
abbrev Coord := Int × Int

/-- The packed colour black, 0x000000 (00_scope.md glossary, 30_encoding.md R70). -/
abbrev black : Color := 0#24

end Sys2Proof
end

