-- ==== Sys2Proof/Config.lean ====
section
/-! DEFINITION. The block's parameters (00_scope.md R6) and the free values.
A parameter the spec marks OPEN is an opaque constant: it has no body that Lean can see, so a statement about it holds for
every value of it. Configuration constants are not state (10_state.md R31). -/

namespace Sys2Proof.Config

/-- `W`, the width of the grid. -/
abbrev gridWidth : Nat := 8

/-- `H`, the height of the grid. -/
abbrev gridHeight : Nat := 8

/-- `NCELL` = W·H, the number of framebuffer cells. -/
abbrev cellCount : Nat := gridWidth * gridHeight

/-- `NCH` = 3·W·H, the number of logical output channels (decision D14). -/
abbrev channelCount : Nat := 3 * gridWidth * gridHeight

/-- `SCAN_LINES` = H, the number of row addresses (decision D16). -/
abbrev scanLines : Nat := gridHeight

/-- `DEFAULT_BRIGHTNESS`, OPEN: an 8-bit unsigned value (decision D12). -/
opaque defaultBrightness : Byte

/-- `PWM_FREQUENCY`, OPEN: a natural number (decision D13). -/
opaque pwmFrequency : Nat

/-- `PWM_RESOLUTION`, OPEN: a natural number (decision D13). -/
opaque pwmResolution : Nat

/-- `DUTY_MAP`, OPEN: from an 8-bit intensity and the latched PWM resolution to a physical duty cycle, a fraction of the PWM
period (47_pwm_mux.md R186, decision D18). No command reads it. -/
opaque dutyMap : Byte → Nat → Rat

/-- The physical duty cycle of a channel that holds ⊥ is any value (47_pwm_mux.md R186): a free value for every
observation and every channel. -/
opaque undefinedDuty : Nat → ChannelId → Rat

/-- What a pin can carry: a bit of a row address, of a column address, of the colour select or of the intensity (R184), or the
PWM output of a channel (47_pwm_mux.md R180). -/
inductive OutputLine where
  | rowAddress (bit : Nat)
  | columnAddress (bit : Nat)
  | colorSelect (bit : Nat)
  | intensity (bit : Nat)
  | pwmOutput (channel : ChannelId)
deriving DecidableEq, Repr

/-- The lines whose pins `ConfigurePins` sets the direction of: row address, column address and PWM output (R180). -/
def OutputLine.setByConfigurePins : OutputLine → Bool
  | .rowAddress _ | .columnAddress _ | .pwmOutput _ => true
  | .colorSelect _ | .intensity _ => false

/-- The electrical form of a line: the three that R184 names, or another. -/
inductive LineForm where
  | parallel
  | shifted
  | decoded
  | other (form : Nat)
deriving DecidableEq, Repr

/-- One entry of the pin and channel assignment: a pin, the line or channel it carries, and in which form. -/
structure PinAssignment where
  pin : Nat
  line : OutputLine
  form : LineForm
deriving DecidableEq, Repr

/-- `PIN_MAP`, OPEN: the pin and channel assignment with the electrical form of the lines (R6, R184, decision D19). No command
reads it. -/
opaque pinMap : List PinAssignment

/-- One move of a handshake: the host or the block drives one of the handshake's wires high or low. -/
structure HandshakeMove where
  byHost : Bool
  wire : Nat
  high : Bool
deriving DecidableEq, Repr

/-- `HOST_BINDING`'s parts (20_memory.md R47, and R43 for the last): the bus address and the width of the command port, the
handshake that delivers one word and tells its completion, as its moves in order, and whether words go as a sequence of bytes. -/
structure HostBinding where
  busAddress : Nat
  busWidth : Nat
  handshake : List HandshakeMove
  byteSerial : Bool
deriving DecidableEq, Repr, Inhabited

/-- `HOST_BINDING`, OPEN (decision D9). The model steps on whole command words and never reads it. -/
opaque hostBinding : HostBinding

end Sys2Proof.Config
end

