-- ==== Sys2Proof/Syntax.lean ====
section
/-! DEFINITION. The command set "S3-MATRIX command set, version 1": one constructor for each of the 15 rows of
spec/opcode_table.json (30_encoding.md R63), its operands in the source's call order (R62, R69). -/

namespace Sys2Proof

/-- A command. Coordinates and sizes are integers (exact arithmetic, R8); `WellFormed` says which of them the 8-bit signed
fields can spell. The brightness and the colour are the fields' own unsigned bits (R61). -/
inductive Instr where
  /-- BEGIN: one-time hardware setup (R80). -/
  | begin
  /-- UPDATE: refresh (R110). -/
  | update
  /-- SETBRIGHT v (R130). -/
  | setBright (v : Byte)
  /-- GETBRIGHT (R131). -/
  | getBright
  /-- SETPIXEL x, y, color (R90). -/
  | setPixel (x y : Int) (color : Color)
  /-- GETPIXEL x, y (R91). -/
  | getPixel (x y : Int)
  /-- CLEAR (R100). -/
  | clear
  /-- CLEARCOLOR color (R101). -/
  | clearColor (color : Color)
  /-- FILLCOLOR color (R102). -/
  | fillColor (color : Color)
  /-- DRAWHLINE x, y, length, color (R141). -/
  | drawHLine (x y length : Int) (color : Color)
  /-- DRAWVLINE x, y, length, color (R142). -/
  | drawVLine (x y length : Int) (color : Color)
  /-- DRAWRECT x, y, w, h, color (R143). -/
  | drawRect (x y w h : Int) (color : Color)
  /-- FILLRECT x, y, w, h, color (R144). -/
  | fillRect (x y w h : Int) (color : Color)
  /-- DRAWCIRCLE x0, y0, r, color (R145). -/
  | drawCircle (x0 y0 r : Int) (color : Color)
  /-- FILLCIRCLE x0, y0, r, color (R146). -/
  | fillCircle (x0 y0 r : Int) (color : Color)
deriving DecidableEq, Repr

/-- The 15 opcodes, without operands (R63). -/
inductive Opcode where
  | begin | update | setBright | getBright | setPixel | getPixel | clear | clearColor | fillColor
  | drawHLine | drawVLine | drawRect | fillRect | drawCircle | fillCircle
deriving DecidableEq, Repr

/-- The opcode of a command. -/
def Instr.opcode : Instr → Opcode
  | .begin => .begin
  | .update => .update
  | .setBright _ => .setBright
  | .getBright => .getBright
  | .setPixel _ _ _ => .setPixel
  | .getPixel _ _ => .getPixel
  | .clear => .clear
  | .clearColor _ => .clearColor
  | .fillColor _ => .fillColor
  | .drawHLine _ _ _ _ => .drawHLine
  | .drawVLine _ _ _ _ => .drawVLine
  | .drawRect _ _ _ _ _ => .drawRect
  | .fillRect _ _ _ _ _ => .fillRect
  | .drawCircle _ _ _ _ => .drawCircle
  | .fillCircle _ _ _ _ => .fillCircle

/-- Does the command end with a refresh? (43_refresh.md R114, 70_reset_and_hazards.md R225) -/
def Opcode.refreshes : Opcode → Bool
  | .setBright | .getBright | .setPixel | .getPixel => false
  | .begin | .update | .clear | .clearColor | .fillColor => true
  | .drawHLine | .drawVLine | .drawRect | .fillRect | .drawCircle | .fillCircle => true

end Sys2Proof
end

