-- ==== Sys2Proof/WellFormed.lean ====
section
/-! DEFINITION. Which commands a command word can spell: every coordinate, length, size and radius lies in [−128, 127], the
range of its 8-bit two's complement field (30_encoding.md R61, R69). The brightness (8 bits) and the colour (24 bits) are
bit vectors of their fields' widths, so no other value of them can be written. -/

namespace Sys2Proof

/-- `v` fits an 8-bit two's complement field. -/
abbrev FitsByte (v : Int) : Prop := -128 ≤ v ∧ v ≤ 127

/-- Every operand of the command fits its field (R61, R69). -/
abbrev WellFormed : Instr → Prop
  | .begin | .update | .getBright | .clear => True
  | .setBright _ | .clearColor _ | .fillColor _ => True
  | .setPixel x y _ | .getPixel x y => FitsByte x ∧ FitsByte y
  | .drawHLine x y n _ | .drawVLine x y n _ => FitsByte x ∧ FitsByte y ∧ FitsByte n
  | .drawRect x y w h _ | .fillRect x y w h _ => FitsByte x ∧ FitsByte y ∧ FitsByte w ∧ FitsByte h
  | .drawCircle x y r _ | .fillCircle x y r _ => FitsByte x ∧ FitsByte y ∧ FitsByte r

/-- `WellFormed` as a decision. -/
def wellFormed : Instr → Bool
  | .begin | .update | .getBright | .clear => true
  | .setBright _ | .clearColor _ | .fillColor _ => true
  | .setPixel x y _ | .getPixel x y => decide (FitsByte x) && decide (FitsByte y)
  | .drawHLine x y n _ | .drawVLine x y n _ => decide (FitsByte x) && decide (FitsByte y) && decide (FitsByte n)
  | .drawRect x y w h _ | .fillRect x y w h _ =>
    decide (FitsByte x) && decide (FitsByte y) && decide (FitsByte w) && decide (FitsByte h)
  | .drawCircle x y r _ | .fillCircle x y r _ => decide (FitsByte x) && decide (FitsByte y) && decide (FitsByte r)

end Sys2Proof
end

