-- ==== Sys2Proof/Decode.lean ====
section
/-! DEFINITION. Command words: the fields of `CMD64`, the opcode map with its match and mask, the decoder (total on every
word, rejecting by name), the encoder, and the byte-serial form (30_encoding.md R60–R66, R71; 20_memory.md R43). -/

namespace Sys2Proof

/-! ## Fields (R60, R61) -/

/-- OP = cmd[63:56]. -/
def opField (w : CmdWord) : Byte := w.extractLsb' 56 8
/-- The raw X field, cmd[55:48]. -/
def xField (w : CmdWord) : Byte := w.extractLsb' 48 8
/-- The raw Y field, cmd[47:40]. -/
def yField (w : CmdWord) : Byte := w.extractLsb' 40 8
/-- The raw P field, cmd[39:32]; read unsigned it is BVAL. -/
def pField (w : CmdWord) : Byte := w.extractLsb' 32 8
/-- The raw Q field, cmd[31:24]. -/
def qField (w : CmdWord) : Byte := w.extractLsb' 24 8
/-- COLOR = cmd[23:0]. -/
def colorField (w : CmdWord) : Color := w.extractLsb' 0 24

/-- `sext_8`: an 8-bit field read as two's complement (R8). -/
def sext8 (b : Byte) : Int := b.toInt

/-! ## The opcode map (R63) -/

/-- The opcode byte of each command (R63). -/
def opcodeByte : Opcode → Byte
  | .begin => 0x01#8
  | .update => 0x02#8
  | .setBright => 0x03#8
  | .getBright => 0x04#8
  | .setPixel => 0x10#8
  | .getPixel => 0x11#8
  | .clear => 0x20#8
  | .clearColor => 0x21#8
  | .fillColor => 0x22#8
  | .drawHLine => 0x30#8
  | .drawVLine => 0x31#8
  | .drawRect => 0x32#8
  | .fillRect => 0x33#8
  | .drawCircle => 0x34#8
  | .fillCircle => 0x35#8

/-- One row of R63's table. -/
structure OpRow where
  opcode : Opcode
  mnemonic : String
  pattern : CmdWord
  mask : CmdWord
deriving DecidableEq, Repr

/-- The lifecycle, refresh and brightness rows of R63. -/
def systemRows : List OpRow :=
  [⟨.begin, "BEGIN", 0x0100000000000000#64, 0xFFFFFFFFFFFFFFFF#64⟩,
   ⟨.update, "UPDATE", 0x0200000000000000#64, 0xFFFFFFFFFFFFFFFF#64⟩,
   ⟨.setBright, "SETBRIGHT", 0x0300000000000000#64, 0xFFFFFF00FFFFFFFF#64⟩,
   ⟨.getBright, "GETBRIGHT", 0x0400000000000000#64, 0xFFFFFFFFFFFFFFFF#64⟩]

/-- The pixel and bulk rows of R63. -/
def pixelRows : List OpRow :=
  [⟨.setPixel, "SETPIXEL", 0x1000000000000000#64, 0xFF0000FFFF000000#64⟩,
   ⟨.getPixel, "GETPIXEL", 0x1100000000000000#64, 0xFF0000FFFFFFFFFF#64⟩,
   ⟨.clear, "CLEAR", 0x2000000000000000#64, 0xFFFFFFFFFFFFFFFF#64⟩,
   ⟨.clearColor, "CLEARCOLOR", 0x2100000000000000#64, 0xFFFFFFFFFF000000#64⟩,
   ⟨.fillColor, "FILLCOLOR", 0x2200000000000000#64, 0xFFFFFFFFFF000000#64⟩]

/-- The shape rows of R63. -/
def shapeRows : List OpRow :=
  [⟨.drawHLine, "DRAWHLINE", 0x3000000000000000#64, 0xFF000000FF000000#64⟩,
   ⟨.drawVLine, "DRAWVLINE", 0x3100000000000000#64, 0xFF000000FF000000#64⟩,
   ⟨.drawRect, "DRAWRECT", 0x3200000000000000#64, 0xFF00000000000000#64⟩,
   ⟨.fillRect, "FILLRECT", 0x3300000000000000#64, 0xFF00000000000000#64⟩,
   ⟨.drawCircle, "DRAWCIRCLE", 0x3400000000000000#64, 0xFF000000FF000000#64⟩,
   ⟨.fillCircle, "FILLCIRCLE", 0x3500000000000000#64, 0xFF000000FF000000#64⟩]

/-- R63's table, row for row. -/
def opRows : List OpRow := systemRows ++ pixelRows ++ shapeRows

/-- The word is this row's command: `(w & mask) == match` (R63). -/
def OpRow.matchesWord (r : OpRow) (w : CmdWord) : Bool := w &&& r.mask == r.pattern

/-- The OP value is one of R63's table; every other value is a reserved opcode (R65). -/
def knownOpcode (op : Byte) : Bool := opRows.any (fun r => opcodeByte r.opcode == op)

/-! ## Decoding (R61, R71) -/

/-- Why a command word is refused (R65, R66). -/
inductive DecodeRefusal where
  /-- The opcode is not in R63's table (R65). -/
  | reservedOpcode
  /-- A known opcode with a nonzero bit in a field that R62 does not list for it (R66). -/
  | nonzeroSbz
deriving DecidableEq, Repr

/-- The operands of a command, assembled from the word's fields (R61). -/
def operandsOf (op : Opcode) (w : CmdWord) : Instr :=
  let x := sext8 (xField w)
  let y := sext8 (yField w)
  let p := sext8 (pField w)
  let q := sext8 (qField w)
  let c := colorField w
  match op with
  | .begin => .begin
  | .update => .update
  | .setBright => .setBright (pField w)
  | .getBright => .getBright
  | .setPixel => .setPixel x y c
  | .getPixel => .getPixel x y
  | .clear => .clear
  | .clearColor => .clearColor c
  | .fillColor => .fillColor c
  | .drawHLine => .drawHLine x y p c
  | .drawVLine => .drawVLine x y p c
  | .drawRect => .drawRect x y p q c
  | .fillRect => .fillRect x y p q c
  | .drawCircle => .drawCircle x y p c
  | .fillCircle => .fillCircle x y p c

/-- The decoder of R71: the row that matches, or the refusal by name. -/
def decode (w : CmdWord) : Except DecodeRefusal Instr :=
  match opRows.find? (fun r => r.matchesWord w) with
  | some r => .ok (operandsOf r.opcode w)
  | none => if knownOpcode (opField w) then .error .nonzeroSbz else .error .reservedOpcode

/-! ## Encoding (R60, R62) -/

/-- A command word from its six fields (R60). -/
def packFields (op x y p q : Byte) (c : Color) : CmdWord := op ++ x ++ y ++ p ++ q ++ c

/-- The 8-bit two's complement form of an operand. -/
def byteOf (v : Int) : Byte := BitVec.ofInt 8 v

/-- The command word of a command: used fields as R62 lists them, every other field zero (R66). -/
def encode (i : Instr) : CmdWord :=
  let op := opcodeByte i.opcode
  match i with
  | .begin | .update | .getBright | .clear => packFields op 0 0 0 0 0
  | .setBright v => packFields op 0 0 v 0 0
  | .setPixel x y c => packFields op (byteOf x) (byteOf y) 0 0 c
  | .getPixel x y => packFields op (byteOf x) (byteOf y) 0 0 0
  | .clearColor c | .fillColor c => packFields op 0 0 0 0 c
  | .drawHLine x y n c | .drawVLine x y n c => packFields op (byteOf x) (byteOf y) (byteOf n) 0 c
  | .drawRect x y w h c | .fillRect x y w h c => packFields op (byteOf x) (byteOf y) (byteOf w) (byteOf h) c
  | .drawCircle x y r c | .fillCircle x y r c => packFields op (byteOf x) (byteOf y) (byteOf r) 0 c

/-! ## Field usage (R62), for the SBZ rule -/

/-- Which of the fields X, Y, P, Q and COLOR a command uses (R62's table). -/
structure FieldUse where
  x : Bool
  y : Bool
  p : Bool
  q : Bool
  color : Bool
deriving DecidableEq, Repr

/-- R62's table. -/
def fieldUse : Opcode → FieldUse
  | .begin | .update | .getBright | .clear => ⟨false, false, false, false, false⟩
  | .setBright => ⟨false, false, true, false, false⟩
  | .setPixel => ⟨true, true, false, false, true⟩
  | .getPixel => ⟨true, true, false, false, false⟩
  | .clearColor | .fillColor => ⟨false, false, false, false, true⟩
  | .drawHLine | .drawVLine => ⟨true, true, true, false, true⟩
  | .drawRect | .fillRect => ⟨true, true, true, true, true⟩
  | .drawCircle | .fillCircle => ⟨true, true, true, false, true⟩

/-- Every field that R62 does not list for the command is zero in the word. -/
def sbzZero (op : Opcode) (w : CmdWord) : Bool :=
  let u := fieldUse op
  (u.x || xField w == 0) && (u.y || yField w == 0) && (u.p || pField w == 0) && (u.q || qField w == 0)
    && (u.color || colorField w == 0)

/-! ## Byte-serial form (20_memory.md R43) -/

/-- A command word as a byte-serial binding carries it, the most significant byte first. -/
def cmdBytes (w : CmdWord) : List Byte :=
  [w.extractLsb' 56 8, w.extractLsb' 48 8, w.extractLsb' 40 8, w.extractLsb' 32 8,
   w.extractLsb' 24 8, w.extractLsb' 16 8, w.extractLsb' 8 8, w.extractLsb' 0 8]

/-- A response word as a byte-serial binding carries it, the most significant byte first. -/
def respBytes (r : RespWord) : List Byte :=
  [r.extractLsb' 24 8, r.extractLsb' 16 8, r.extractLsb' 8 8, r.extractLsb' 0 8]

/-- Takes one whole command word off a stream of bytes. A word is always one whole 64-bit unit (R44): fewer than eight bytes
are no word yet. -/
def takeWord : List Byte → Option (CmdWord × List Byte)
  | b7 :: b6 :: b5 :: b4 :: b3 :: b2 :: b1 :: b0 :: rest => some (b7 ++ b6 ++ b5 ++ b4 ++ b3 ++ b2 ++ b1 ++ b0, rest)
  | _ => none

/-- Decodes the first command of a stream of bytes; `none` where the stream holds no whole word. -/
def decodeBytes (bs : List Byte) : Option (Except DecodeRefusal Instr × List Byte) :=
  (takeWord bs).map (fun t => (decode t.1, t.2))

/-! ## The host's entry -/

/-- The command word that the opcode table's numbering gives: bit 0 is the least significant bit of the one 64-bit word, and
every bit above `nbits` is zero. -/
def tableWord (nbits w : Nat) : CmdWord := BitVec.ofNat 64 (w % 2 ^ nbits)

/-- The command the decoder reads from a word of the opcode table. -/
def decodeTableWord (nbits w : Nat) : Option Instr := (decode (tableWord nbits w)).toOption

end Sys2Proof
end

