-- ==== Sys2Proof/Machine/State.lean ====
section
/-! DEFINITION. The state of the block (10_state.md R20–R32), its reset value (70_reset_and_hazards.md R220), and the
reasons a step or a host read can stop. Plain data throughout. -/

namespace Sys2Proof.Machine

/-! ## The framebuffer -/

/-- The framebuffer, the block's only memory (R20, R32, R40): 64 cells at addresses 0..63, each one 24-bit unit. It is held
as the list of the cells that are not black, by rising address. The list's unit is the spec's smallest access, a whole cell
(R40: "a cell's bytes have no addresses of their own"). What an unlisted cell reads as is `unlistedCell`. -/
abbrev Memory := List (Nat × Color)

/-- What a cell that nothing has written reads as: black, the reset value of every cell (R20). -/
abbrev unlistedCell : Color := black

/-- The canonical form: every listed address is a cell's (below 64), every listed colour differs from `unlistedCell`, and
the addresses strictly rise. Equal framebuffers are then equal lists. -/
def Memory.wf : Memory → Bool
  | [] => true
  | [(a, c)] => decide (a < 64) && decide (c ≠ unlistedCell)
  | (a, c) :: (b, d) :: rest => decide (a < b) && decide (c ≠ unlistedCell) && Memory.wf ((b, d) :: rest)

/-! ## The output trace -/

/-- One frame of the output trace (R27): `cfg` is `Begun` when the refresh ran, `writes` its 192 channel writes in order. -/
structure Frame where
  cfg : Bool
  writes : List ChannelWrite
deriving DecidableEq, Repr

/-! ## The state -/

/-- Everything the spec gives the block to hold, and the command port. `none` in a channel register, in `RESP` and in the
two PWM latches is the spec's own value ⊥ (R22, R24, R26), not a register without a reset value. -/
@[ext]
structure State where
  /-- `FB`, the framebuffer (R20). -/
  fb : Memory
  /-- `BRIGHT`, the brightness register (R21). -/
  bright : Byte
  /-- `CH`, the 192 channel registers, each an intensity or ⊥ (R22). -/
  ch : Vector (Option Byte) 192
  /-- `PINS_CFG` (R23). -/
  pinsCfg : Bool
  /-- `PWM_CFG` (R24). -/
  pwmCfg : Bool
  /-- `PWM_FREQ`, the latched frequency or ⊥ (R24). -/
  pwmFreq : Option Nat
  /-- `PWM_RES`, the latched resolution or ⊥ (R24). -/
  pwmRes : Option Nat
  /-- `RESP`, the response register, or ⊥ before the first command completes (R26). -/
  resp : Option RespWord
  /-- `LOG`, the output trace, oldest frame first (R27). -/
  log : List Frame
  /-- The model's state-wide refusal mark (R65, R202, R220). -/
  refusalMark : Bool
  /-- The command port (R47, R71): the one command word that the host has delivered and that has not run yet. The spec calls
  the port a parameter's matter (`HOST_BINDING`); this field is the model's own form of it (log entry 3). -/
  pending : Option CmdWord
deriving DecidableEq, Repr

/-- The machine right after reset (R220). No command has been delivered. -/
def State.reset : State where
  fb := []
  bright := Config.defaultBrightness
  ch := Vector.replicate 192 none
  pinsCfg := false
  pwmCfg := false
  pwmFreq := none
  pwmRes := none
  resp := none
  log := []
  refusalMark := false
  pending := none

/-! ## Stops -/

/-- What can fault. The block raises no exception (60_exceptions.md R200), so no command faults. -/
inductive Fault where
  /-- Raised by a host read of `RESP` while it holds ⊥, before any command has completed (R26, decision D8). Safe: no claim
  about the value read can be proved. -/
  | respUndefined
deriving DecidableEq, Repr

/-- What a step can refuse (60_exceptions.md R202). -/
inductive Refusal where
  /-- Raised by an arm of `exec` whose instruction has no meaning yet. No arm does. Safe. -/
  | notModelled (mnemonic : String)
  /-- Raised by `step` on a word whose opcode is reserved (R65, `Refuse(ReservedOpcode)`). Safe: the spec gives such a word no
  meaning, and the model goes no further than the refusal mark. -/
  | reservedOpcode
  /-- Raised by `step` on a known opcode with a nonzero should-be-zero field (R66, `Refuse(NonzeroSBZ)`). Safe: as above. -/
  | nonzeroSbz
deriving DecidableEq, Repr

end Sys2Proof.Machine
end

