-- ==== Sys2Proof/Machine/Color.lean ====
section
/-! DEFINITION. The colour functions (46_color.md R170–R175) and the brightness scaling (43_refresh.md R111): pure functions
that read and write no state. Arithmetic is exact and division truncates (R8). -/

namespace Sys2Proof.Machine

/-- `PackColor(r, g, b) := (r << 16) | (g << 8) | b` (R170). -/
def packColor (r g b : Byte) : Color :=
  (r.setWidth 24 <<< 16) ||| (g.setWidth 24 <<< 8) ||| b.setWidth 24

/-- `UnpackColor(c) := (c[23:16], c[15:8], c[7:0])` (R171). -/
def unpackColor (c : Color) : Byte × Byte × Byte :=
  (c.extractLsb' 16 8, c.extractLsb' 8 8, c.extractLsb' 0 8)

/-- Component k of a colour: 0 red, 1 green, 2 blue (R171, R183). -/
def colorComponent (c : Color) (k : Component) : Byte :=
  match k with
  | 0 => (unpackColor c).1
  | 1 => (unpackColor c).2.1
  | 2 => (unpackColor c).2.2

/-- `Scale(c, b) := (c * b) div 255` (R111). -/
def scale (c b : Byte) : Byte := BitVec.ofNat 8 (c.toNat * b.toNat / 255)

/-- One channel of `BlendColor`: `(a * (255 - t) + b * t) div 255` (R173). -/
def blendChannel (a b t : Byte) : Byte :=
  BitVec.ofNat 8 ((a.toNat * (255 - t.toNat) + b.toNat * t.toNat) / 255)

/-- `BlendColor(c1, c2, t)` (R173). It has no opcode: it is a host-side function (R64). -/
def blendColor (c1 c2 : Color) (t : Byte) : Color :=
  let (r1, g1, b1) := unpackColor c1
  let (r2, g2, b2) := unpackColor c2
  packColor (blendChannel r1 r2 t) (blendChannel g1 g2 t) (blendChannel b1 b2 t)

/-- `zext_32` of a colour (R67, R91). -/
def zextColor (c : Color) : RespWord := c.setWidth 32

/-- `zext_32` of the brightness (R67, R131). -/
def zextByte (b : Byte) : RespWord := b.setWidth 32

end Sys2Proof.Machine
end

