-- ==== Sys2Proof/Machine/Operands.lean ====
section
/-! DEFINITION. What the operands of a command name: a coordinate and its cell (00_scope.md R10, the one addressing mode of
41_pixel_access.md), the finite cell set of a shape (45_shapes.md R141–R146), and the channel of a cell's component
(47_pwm_mux.md R183). All arithmetic is exact over the integers (R8). -/

namespace Sys2Proof.Machine

/-! ## Coordinates (R10) -/

/-- `InRange(x, y)`. -/
abbrev InRange (x y : Int) : Prop := (0 ≤ x ∧ x < Config.gridWidth) ∧ (0 ≤ y ∧ y < Config.gridHeight)

/-- `Idx(x, y) := W*y + x`, defined only when `InRange(x, y)`: no operation forms it for another coordinate. -/
def idx (x y : Int) : Nat := (Config.gridWidth * y + x).toNat

/-! ## Cell sets of the shapes -/

/-- The integers lo, lo+1, …, lo+n−1. -/
def run (lo : Int) (n : Nat) : List Int := (List.range n).map (fun (i : Nat) => lo + (i : Int))

/-- R141: `{ (X + i, Y) | 0 <= i < P }`, empty when P ≤ 0. -/
def hLineCells (x y p : Int) : List Coord := (run x p.toNat).map (fun u => (u, y))

/-- R142: `{ (X, Y + j) | 0 <= j < P }`, empty when P ≤ 0. -/
def vLineCells (x y p : Int) : List Coord := (run y p.toNat).map (fun v => (x, v))

/-- R143: the four edges of the P × Q rectangle, empty when P ≤ 0 or Q ≤ 0. -/
def rectCells (x y p q : Int) : List Coord :=
  if p ≤ 0 ∨ q ≤ 0 then []
  else hLineCells x y p ++ hLineCells x (y + q - 1) p ++ vLineCells x y q ++ vLineCells (x + p - 1) y q

/-- R144: `{ (X + i, Y + j) | 0 <= i < P, 0 <= j < Q }`. -/
def fillRectCells (x y p q : Int) : List Coord := (run y q.toNat).flatMap (fun v => hLineCells x v p)

/-- The eight symmetric points of the offset (u, v) around the centre (x0, y0) (R145). -/
def octants (x0 y0 u v : Int) : List Coord :=
  [(x0 + u, y0 + v), (x0 - u, y0 + v), (x0 + u, y0 - v), (x0 - u, y0 - v),
   (x0 + v, y0 + u), (x0 - v, y0 + u), (x0 + v, y0 - u), (x0 - v, y0 - u)]

/-- R145's decision update: the new d from this step's x, y and d. -/
def circleDecision (u v d : Int) : Int := if d ≤ 0 then d + 4 * v + 6 else d + 4 * (v - u) + 10

/-- R145's new x from this step's x and d. -/
def circleNextX (u d : Int) : Int := if d ≤ 0 then u else u - 1

/-- R145's loop `while x >= y`, in the step order of decision D28: plot, update d with this step's x and y, x −= 1 on the
else branch, y += 1. The first argument bounds the number of steps; P + 1 steps are enough, because y grows by one every step
and x never grows. -/
def circleLoop (x0 y0 : Int) : Nat → Int → Int → Int → List Coord
  | 0, _, _, _ => []
  | n + 1, u, v, d =>
    if v ≤ u then octants x0 y0 u v ++ circleLoop x0 y0 n (circleNextX u d) (v + 1) (circleDecision u v d) else []

/-- R145: the cells of the circle of radius r, from x = r, y = 0, d = 3 − 2r. Empty when r < 0. -/
def circleCells (x0 y0 r : Int) : List Coord := circleLoop x0 y0 (r + 1).toNat r 0 (3 - 2 * r)

/-- The integers −r, …, r; none when r < 0. -/
def symmetricRun (r : Int) : List Int := run (-r) (2 * r + 1).toNat

/-- R146: the dense scan `{ (X + dx, Y + dy) | -P <= dx <= P, -P <= dy <= P, dx*dx + dy*dy <= P*P }`. -/
def discCells (x0 y0 r : Int) : List Coord :=
  (symmetricRun r).flatMap (fun dy =>
    ((symmetricRun r).filter (fun dx => decide (dx * dx + dy * dy ≤ r * r))).map (fun dx => (x0 + dx, y0 + dy)))

/-! ## Channels (R183) -/

/-- `ChannelId(x, y, k) := 3 * (8*y + x) + k`. -/
def channelId (x y : Fin 8) (k : Component) : ChannelId := ⟨3 * (8 * y.val + x.val) + k.val, by omega⟩

/-- The row of a channel, `i div 24`. -/
def channelRow (i : ChannelId) : Fin 8 := ⟨i.val / 24, by omega⟩

/-- The column of a channel, `(i mod 24) div 3`. -/
def channelColumn (i : ChannelId) : Fin 8 := ⟨i.val % 24 / 3, by omega⟩

/-- The colour component of a channel, `i mod 3`. -/
def channelComponent (i : ChannelId) : Component := ⟨i.val % 3, by omega⟩

end Sys2Proof.Machine
end

