-- ==== Sys2Proof/Machine/Flags.lean ====
section
/-! DEFINITION. The block has no flags and no condition codes (10_state.md R30), so no flag is computed anywhere. Its one
derived condition, which decides only whether a channel write defines the channel's output, is `Begun` (R25). -/

namespace Sys2Proof.Machine

/-- `Begun`, the derived condition `PINS_CFG and PWM_CFG` (R25). No command reads it to decide whether it executes. -/
def State.begun (s : State) : Bool := s.pinsCfg && s.pwmCfg

end Sys2Proof.Machine
end

