-- ==== Sys2Proof/Machine/Ops.lean ====
section
/-! DEFINITION. The named operations that every meaning is made of: reading and writing the framebuffer, the brightness and
the response register, the three operations of the PWM driver (47_pwm_mux.md R180–R182), the refresh (43_refresh.md R110), the
whole-buffer fill (42_bulk_fill.md R103) and the shape body (45_shapes.md R140).
The block takes no exception and returns from none (60_exceptions.md R200, R206, R207). The one thing that happens instead,
the refusal of a word without a meaning (R202), is `State.refuse`. -/

namespace Sys2Proof.Machine

/-! ## The framebuffer as a memory (R9, R40) -/

/-- `MemRead(a, 3)`, the same as `FB[a]`: the whole cell. -/
def Memory.read : Memory → Nat → Color
  | [], _ => unlistedCell
  | (b, d) :: rest, a => if a = b then d else Memory.read rest a

/-- Puts a cell in its place by address, before the first larger address. -/
def Memory.insertCell : Memory → Nat → Color → Memory
  | [], a, c => [(a, c)]
  | (b, d) :: rest, a, c => if a < b then (a, c) :: (b, d) :: rest else (b, d) :: Memory.insertCell rest a c

/-- The memory without the cell at address a. -/
def Memory.eraseCell (m : Memory) (a : Nat) : Memory := m.filter (fun e => e.1 != a)

/-- `MemWrite(a, 3, c)`, the same as `FB[a] <- c`: the whole cell. Writing what an unlisted cell reads as removes the entry,
so the canonical form is kept. -/
def Memory.write (m : Memory) (a : Nat) (c : Color) : Memory :=
  if c = unlistedCell then m.eraseCell a else (m.eraseCell a).insertCell a c

/-- `Plot(x, y, c)` on the framebuffer (R10): the one way a drawing command writes a cell. A coordinate out of range is
dropped, never clamped and never an error (60_exceptions.md R201). -/
def Memory.plot (m : Memory) (x y : Int) (c : Color) : Memory := if InRange x y then m.write (idx x y) c else m

/-- Plots every member of a cell set with one colour (R140); the order is not observable (R148). -/
def Memory.plotAll (m : Memory) (cells : List Coord) (c : Color) : Memory := cells.foldl (fun n p => n.plot p.1 p.2 c) m

/-- Writes one colour into every cell, addresses 0 to 63 in turn (R103). -/
def Memory.fill (m : Memory) (c : Color) : Memory := (List.range Config.cellCount).foldl (fun n a => n.write a c) m

/-- `FB[a]`. -/
def State.readCell (s : State) (a : Nat) : Color := s.fb.read a

/-- `Plot(x, y, c)` (R10). -/
def State.plot (s : State) (x y : Int) (c : Color) : State := { s with fb := s.fb.plot x y c }

/-- Plots a cell set (R140). -/
def State.plotAll (s : State) (cells : List Coord) (c : Color) : State := { s with fb := s.fb.plotAll cells c }

/-- Fills the framebuffer (R103). -/
def State.fillCells (s : State) (c : Color) : State := { s with fb := s.fb.fill c }

/-! ## Registers -/

/-- `BRIGHT <- v` (R9). -/
def State.setBrightness (s : State) (v : Byte) : State := { s with bright := v }

/-- `RESP <- v` (R9, R67). -/
def State.respond (s : State) (v : RespWord) : State := { s with resp := some v }

/-! ## The PWM intensity driver (R180–R182) -/

/-- `ConfigurePins()` (R180): `PINS_CFG <- true`. It writes no channel. -/
def State.configurePins (s : State) : State := { s with pinsCfg := true }

/-- `ConfigurePWM(f, r)` (R181): latches both, sets every channel to ⊥, then `PWM_CFG <- true`. -/
def State.configurePwm (s : State) (f r : Nat) : State :=
  { s with pwmFreq := some f, pwmRes := some r, ch := Vector.replicate 192 none, pwmCfg := true }

/-- The channel registers after one write (R182): the channel takes the intensity when `Begun`, and ⊥ otherwise. -/
def emitChannel (begun : Bool) (ch : Vector (Option Byte) 192) (w : ChannelWrite) : Vector (Option Byte) 192 :=
  ch.set w.1.val (if begun then some w.2 else none) w.1.isLt

/-- `Emit(i, v)`, the driver's `writeChannel` (R182). The address lines it drives meanwhile are `muxLines` (R184), a function
of i and v. -/
def State.emit (s : State) (w : ChannelWrite) : State := { s with ch := emitChannel s.begun s.ch w }

/-- Emits a list of writes in order. No write changes `Begun` (R180, R181). -/
def State.emitAll (s : State) (ws : List ChannelWrite) : State := { s with ch := ws.foldl (emitChannel s.begun) s.ch }

/-! ## The refresh (R110–R114) -/

/-- The rows and the columns of the scan, 0 to 7 in turn (R112). -/
def scanOrder : List (Fin 8) := [0, 1, 2, 3, 4, 5, 6, 7]

/-- The components of a cell in the order they are emitted: red, green, blue (R112). -/
def componentOrder : List Component := [0, 1, 2]

/-- The three writes of one cell: each component scaled by the brightness (R110, R111). -/
def cellWrites (fb : Memory) (bright : Byte) (x y : Fin 8) : List ChannelWrite :=
  componentOrder.map (fun k => (channelId x y k, scale (colorComponent (fb.read (8 * y.val + x.val)) k) bright))

/-- The 192 writes of a refresh in raster order: rows, within a row columns, within a cell components (R112). -/
def rasterWrites (fb : Memory) (bright : Byte) : List ChannelWrite :=
  scanOrder.flatMap (fun y => scanOrder.flatMap (fun x => cellWrites fb bright x y))

/-- `LOG <- LOG ++ [frame]`. -/
def State.record (s : State) (f : Frame) : State := { s with log := s.log ++ [f] }

/-- `Refresh()` (R110): samples `Begun` once, emits every write in order, and appends exactly one frame. No write changes FB
or BRIGHT (R113), so the writes are the same whether they are computed one by one or all at once. -/
def State.refresh (s : State) : State :=
  (s.emitAll (rasterWrites s.fb s.bright)).record ⟨s.begun, rasterWrites s.fb s.bright⟩

/-! ## Bodies shared by several commands -/

/-- `FillAll(c)` (R103): every cell, then exactly one refresh. -/
def State.fillAll (s : State) (c : Color) : State := (s.fillCells c).refresh

/-- `Shape(S, COLOR)` without its response (R140): plots the cell set, then refreshes exactly once, also when nothing was
plotted. -/
def State.shape (s : State) (cells : List Coord) (c : Color) : State := (s.plotAll cells c).refresh

/-! ## The command port and the refusal -/

/-- Takes the delivered word off the command port: the step that runs it completes it (R71). -/
def State.takeCommand (s : State) : State := { s with pending := none }

/-- The state after a refused word (R65, R66, R202): the refusal mark is set and nothing else changes; the word itself is
gone from the port. `RESP` keeps its value (R67). -/
def State.refuse (s : State) : State := { s with refusalMark := true, pending := none }

end Sys2Proof.Machine
end

