-- ==== Sys2Proof/Machine/Brightness.lean ====
section
/-! DEFINITION. The brightness commands (44_brightness.md). Neither refreshes (R130, R132). -/

namespace Sys2Proof.Machine

/-- SETBRIGHT (R130): `BRIGHT <- BVAL`, `RESP <- 0`. -/
def execSetBright (v : Byte) (s : State) : Host.Outcome State Fault Refusal := .next ((s.setBrightness v).respond 0)

/-- GETBRIGHT (R131): `RESP <- zext_32(BRIGHT)`. -/
def execGetBright (s : State) : Host.Outcome State Fault Refusal := .next (s.respond (zextByte s.bright))

end Sys2Proof.Machine
end

