-- ==== Sys2Proof/Machine/Bulk.lean ====
section
/-! DEFINITION. The bulk fill commands (42_bulk_fill.md). Each ends in one refresh. -/

namespace Sys2Proof.Machine

/-- CLEAR (R100): `FillAll(0x000000)`, `RESP <- 0`. -/
def execClear (s : State) : Host.Outcome State Fault Refusal := .next ((s.fillAll black).respond 0)

/-- CLEARCOLOR (R101): `FillAll(COLOR)`, `RESP <- 0`. -/
def execClearColor (c : Color) (s : State) : Host.Outcome State Fault Refusal := .next ((s.fillAll c).respond 0)

/-- FILLCOLOR (R102): `FillAll(COLOR)`, `RESP <- 0`, the same effect as CLEARCOLOR under an opcode of its own. -/
def execFillColor (c : Color) (s : State) : Host.Outcome State Fault Refusal := .next ((s.fillAll c).respond 0)

end Sys2Proof.Machine
end

