-- ==== Sys2Proof/Machine/Lifecycle.lean ====
section
/-! DEFINITION. The lifecycle command (40_lifecycle.md). -/

namespace Sys2Proof.Machine

/-- BEGIN (R80): pin setup, PWM setup with the configured constants, then the clear and its refresh, and `RESP <- 1`. A
repeated BEGIN runs all of it again (R81); it never fails (R82). -/
def execBegin (s : State) : Host.Outcome State Fault Refusal :=
  .next (((s.configurePins.configurePwm Config.pwmFrequency Config.pwmResolution).fillAll black).respond 1)

end Sys2Proof.Machine
end

