-- ==== Sys2Proof/Machine/Pixel.lean ====
section
/-! DEFINITION. The pixel access commands (41_pixel_access.md). Neither refreshes. -/

namespace Sys2Proof.Machine

/-- SETPIXEL (R90): `Plot(X, Y, COLOR)`, `RESP <- 0`. -/
def execSetPixel (x y : Int) (c : Color) (s : State) : Host.Outcome State Fault Refusal := .next ((s.plot x y c).respond 0)

/-- GETPIXEL (R91): `RESP` gets the cell, or black when the coordinate is out of range. -/
def execGetPixel (x y : Int) (s : State) : Host.Outcome State Fault Refusal :=
  .next (s.respond (if InRange x y then zextColor (s.readCell (idx x y)) else 0))

end Sys2Proof.Machine
end

