-- ==== Sys2Proof/Machine/Refresh.lean ====
section
/-! DEFINITION. The refresh command (43_refresh.md). -/

namespace Sys2Proof.Machine

/-- UPDATE (R110): one refresh, `RESP <- 0`. -/
def execUpdate (s : State) : Host.Outcome State Fault Refusal := .next (s.refresh.respond 0)

end Sys2Proof.Machine
end

