-- ==== Sys2Proof/Machine/Shapes.lean ====
section
/-! DEFINITION. The shape commands (45_shapes.md): each plots its cell set, refreshes exactly once and answers 0 (R140). -/

namespace Sys2Proof.Machine

/-- DRAWHLINE (R141). -/
def execDrawHLine (x y p : Int) (c : Color) (s : State) : Host.Outcome State Fault Refusal :=
  .next ((s.shape (hLineCells x y p) c).respond 0)

/-- DRAWVLINE (R142). -/
def execDrawVLine (x y p : Int) (c : Color) (s : State) : Host.Outcome State Fault Refusal :=
  .next ((s.shape (vLineCells x y p) c).respond 0)

/-- DRAWRECT (R143). -/
def execDrawRect (x y p q : Int) (c : Color) (s : State) : Host.Outcome State Fault Refusal :=
  .next ((s.shape (rectCells x y p q) c).respond 0)

/-- FILLRECT (R144). -/
def execFillRect (x y p q : Int) (c : Color) (s : State) : Host.Outcome State Fault Refusal :=
  .next ((s.shape (fillRectCells x y p q) c).respond 0)

/-- DRAWCIRCLE (R145). -/
def execDrawCircle (x0 y0 r : Int) (c : Color) (s : State) : Host.Outcome State Fault Refusal :=
  .next ((s.shape (circleCells x0 y0 r) c).respond 0)

/-- FILLCIRCLE (R146). -/
def execFillCircle (x0 y0 r : Int) (c : Color) (s : State) : Host.Outcome State Fault Refusal :=
  .next ((s.shape (discCells x0 y0 r) c).respond 0)

end Sys2Proof.Machine
end

