-- ==== Sys2Proof/Machine/Dispatch.lean ====
section
/-! DEFINITION. One arm per command: its meaning (30_encoding.md R63, R71). -/

namespace Sys2Proof.Machine

def exec (i : Instr) (s : State) : Host.Outcome State Fault Refusal :=
  match i with
  | .begin => Sys2Proof.Machine.execBegin s
  | .update => Sys2Proof.Machine.execUpdate s
  | .setBright v => Sys2Proof.Machine.execSetBright v s
  | .getBright => Sys2Proof.Machine.execGetBright s
  | .setPixel x y c => Sys2Proof.Machine.execSetPixel x y c s
  | .getPixel x y => Sys2Proof.Machine.execGetPixel x y s
  | .clear => Sys2Proof.Machine.execClear s
  | .clearColor c => Sys2Proof.Machine.execClearColor c s
  | .fillColor c => Sys2Proof.Machine.execFillColor c s
  | .drawHLine x y n c => Sys2Proof.Machine.execDrawHLine x y n c s
  | .drawVLine x y n c => Sys2Proof.Machine.execDrawVLine x y n c s
  | .drawRect x y w h c => Sys2Proof.Machine.execDrawRect x y w h c s
  | .fillRect x y w h c => Sys2Proof.Machine.execFillRect x y w h c s
  | .drawCircle x y r c => Sys2Proof.Machine.execDrawCircle x y r c s
  | .fillCircle x y r c => Sys2Proof.Machine.execFillCircle x y r c s

end Sys2Proof.Machine
end

