-- ==== Sys2Proof/Machine/Port.lean ====
section
/-! DEFINITION. The command port and its host (20_memory.md R47, 30_encoding.md R67, R71, 70_reset_and_hazards.md R220, R226):
delivering a command word, what a delivered word does, and reading the response register. -/

namespace Sys2Proof.Machine

/-- Puts a word on the command port. -/
def State.withCommand (s : State) (w : CmdWord) : State := { s with pending := some w }

/-- The host delivers a command word. At most one is outstanding (R71): while one has not completed there is no such move
(R226; 93_implementation_defined.md U7, `stuck`). -/
def deliver (w : CmdWord) (s : State) : Option State := if s.pending = none then some (s.withCommand w) else none

/-- The step's refusal for the decoder's (R65, R66, R71). -/
def refusalOf : DecodeRefusal → Refusal
  | .reservedOpcode => .reservedOpcode
  | .nonzeroSbz => .nonzeroSbz

/-- R71's `Step(cmd)`: decode the word, run the command's body (which writes RESP), or refuse by name. -/
def runCommand (w : CmdWord) (s : State) : Host.Outcome State Fault Refusal :=
  match decode w with
  | .ok i => exec i s.takeCommand
  | .error r => .refused (refusalOf r)

/-- What the step runs: the command on the port. With none the block waits and holds its state and its outputs
(47_pwm_mux.md R185, 60_exceptions.md R210, R220). -/
def runPending (s : State) : Host.Outcome State Fault Refusal :=
  match s.pending with
  | some w => runCommand w s
  | none => .next s

/-- The host reads `RESP` (R26, R67). While it holds ⊥, before the first command has completed, the read is a fault: R26 says
that the model faults it, with decision D8, and 93_implementation_defined.md's U6 says `fault`. -/
def hostReadResponse (s : State) : Except Fault RespWord :=
  match s.resp with
  | some v => .ok v
  | none => .error .respUndefined -- the spec's own fault: R26, D8, U6

/-- A platform reset, or power loss and power-on (R210, R220): every piece of state takes its reset value. -/
def platformReset (_ : State) : State := State.reset

end Sys2Proof.Machine
end

