-- ==== Sys2Proof/Machine/Step.lean ====
section
/-! DEFINITION. One step of the block (30_encoding.md R71), and where its next command stands. -/

namespace Sys2Proof.Machine

/-- One step: the command on the port, run to completion (R11, R45, R71). -/
def step (s : State) : Host.Outcome State Fault Refusal := runPending s

/-- The state with a word of the opcode table on the command port, where the next step takes it. Nothing is fetched and no
program is stored (10_state.md R29): the host delivers each word. -/
def State.withFetchWord (s : State) (nbits w : Nat) : State := s.withCommand (tableWord nbits w)

end Sys2Proof.Machine
end

