-- ==== Sys2Proof/Machine/Assembler.lean ====
section
/-! DEFINITION. The assembler syntax, the named colours and the pseudo-commands (30_encoding.md R69, R70, R72; 46_color.md
R175). Host software: no command of the block reads it. An operand outside its field's range is refused, never truncated. -/

namespace Sys2Proof.Machine

/-! ## Named colours (R70) -/

/-- The three named colours; COLOR_WHITE's value is the spec's own from general knowledge (decision D35). -/
def namedColors : List (String × Color) :=
  [("COLOR_BLACK", 0x000000#24), ("COLOR_RED", 0xFF0000#24), ("COLOR_WHITE", 0xFFFFFF#24)]

/-! ## Operands -/

/-- An operand as it is written: a decimal integer or a colour. -/
inductive AsmOperand where
  | int (v : Int)
  | color (c : Color)
deriving DecidableEq, Repr

/-- An unsigned 8-bit operand, a brightness or a colour channel: refused outside 0..255 (R69, R175). -/
def byteOperand (v : Int) : Option Byte := if 0 ≤ v ∧ v ≤ 255 then some (BitVec.ofInt 8 v) else none

/-- A command with its operands in the source's call order (R69); no other operand list. -/
def operandForm : Opcode → List AsmOperand → Option Instr
  | .begin, [] => some .begin
  | .update, [] => some .update
  | .setBright, [.int v] => (byteOperand v).map .setBright
  | .getBright, [] => some .getBright
  | .setPixel, [.int x, .int y, .color c] => some (.setPixel x y c)
  | .getPixel, [.int x, .int y] => some (.getPixel x y)
  | .clear, [] => some .clear
  | .clearColor, [.color c] => some (.clearColor c)
  | .fillColor, [.color c] => some (.fillColor c)
  | .drawHLine, [.int x, .int y, .int n, .color c] => some (.drawHLine x y n c)
  | .drawVLine, [.int x, .int y, .int n, .color c] => some (.drawVLine x y n c)
  | .drawRect, [.int x, .int y, .int w, .int h, .color c] => some (.drawRect x y w h c)
  | .fillRect, [.int x, .int y, .int w, .int h, .color c] => some (.fillRect x y w h c)
  | .drawCircle, [.int x, .int y, .int r, .color c] => some (.drawCircle x y r c)
  | .fillCircle, [.int x, .int y, .int r, .color c] => some (.fillCircle x y r c)
  | _, _ => none

/-- Refuses a command with an operand outside its field (R69). -/
def fitted (i : Instr) : Option Instr := if wellFormed i then some i else none

/-- The pseudo-commands (R72), each to the real commands it stands for, before their operands' fields are checked. -/
def pseudoForm (m : String) (ops : List AsmOperand) : Option (List Instr) :=
  match ops with
  | [.int x, .int y, .int r, .int g, .int b] =>
    if m = "SETPIXELRGB" then
      match byteOperand r, byteOperand g, byteOperand b with
      | some r, some g, some b => some [.setPixel x y (packColor r g b)]
      | _, _, _ => none
    else none
  | [.int r, .int g, .int b] =>
    if m = "FILLCOLORRGB" then
      match byteOperand r, byteOperand g, byteOperand b with
      | some r, some g, some b => some [.fillColor (packColor r g b)]
      | _, _, _ => none
    else none
  | [.int v] => if m = "SHOWBRIGHT" then (byteOperand v).map (fun b => [.setBright b, .update]) else none
  | _ => none

/-- One line's commands from its mnemonic and operands, or `none` where the assembler refuses it (R69, R72, R175). The refusal
is host software's: no word is made, and the block's state, its refusal mark included, is not touched. That it leaves the mark
alone is the model's choice (log entry 16, DESIGN CHOICE). -/
def assemble (m : String) (ops : List AsmOperand) : Option (List Instr) :=
  match opRows.find? (fun r => r.mnemonic == m) with
  | some r => (operandForm r.opcode ops).bind (fun i => (fitted i).map (fun j => [j]))
  | none => (pseudoForm m ops).bind (fun is => is.mapM fitted)

/-- A command as R69 writes it: its mnemonic, and its operands in the source's call order. -/
def writtenForm : Instr → String × List AsmOperand
  | .begin => ("BEGIN", [])
  | .update => ("UPDATE", [])
  | .setBright v => ("SETBRIGHT", [.int v.toNat])
  | .getBright => ("GETBRIGHT", [])
  | .setPixel x y c => ("SETPIXEL", [.int x, .int y, .color c])
  | .getPixel x y => ("GETPIXEL", [.int x, .int y])
  | .clear => ("CLEAR", [])
  | .clearColor c => ("CLEARCOLOR", [.color c])
  | .fillColor c => ("FILLCOLOR", [.color c])
  | .drawHLine x y n c => ("DRAWHLINE", [.int x, .int y, .int n, .color c])
  | .drawVLine x y n c => ("DRAWVLINE", [.int x, .int y, .int n, .color c])
  | .drawRect x y w h c => ("DRAWRECT", [.int x, .int y, .int w, .int h, .color c])
  | .fillRect x y w h c => ("FILLRECT", [.int x, .int y, .int w, .int h, .color c])
  | .drawCircle x0 y0 r c => ("DRAWCIRCLE", [.int x0, .int y0, .int r, .color c])
  | .fillCircle x0 y0 r c => ("FILLCIRCLE", [.int x0, .int y0, .int r, .color c])

/-! ## Text -/

/-- A blank between tokens. -/
def isBlank (c : Char) : Bool := c == ' ' || c == '\t'

/-- A text without the blanks at its two ends. -/
def trimBlanks (cs : List Char) : List Char := ((cs.dropWhile isBlank).reverse.dropWhile isBlank).reverse

/-- The digits of base 16 in the order of their values, in upper and in lower case; base 10's are the first ten. -/
def digitTables : List (List Char) := ["0123456789ABCDEF".toList, "0123456789abcdef".toList]

/-- The value of a digit of the base: its place among the base's digits. -/
def digitValue (base : Nat) (c : Char) : Option Nat := digitTables.findSome? (fun t => (t.take base).idxOf? c)

/-- A nonempty string of digits of a base, read most significant first. -/
def parseDigits (base : Nat) (cs : List Char) : Option Nat :=
  if cs = [] then none else (cs.mapM (digitValue base)).map (List.foldl (fun n d => base * n + d) 0)

/-- A decimal integer, with a leading `-` where it is negative. -/
def parseInt : List Char → Option Int
  | '-' :: cs => (parseDigits 10 cs).map (fun n => -(n : Int))
  | cs => (parseDigits 10 cs).map (fun n => (n : Int))

/-- A colour: `#0x` and six hexadecimal digits, or a named constant (R69, R70). -/
def parseColor : List Char → Option Color
  | '#' :: '0' :: 'x' :: ds => if ds.length = 6 then (parseDigits 16 ds).map (BitVec.ofNat 24) else none
  | cs => (namedColors.find? (fun e => e.1.toList == cs)).map (fun e => e.2)

/-- One operand. -/
def parseOperand (cs : List Char) : Option AsmOperand :=
  match parseColor cs with
  | some c => some (.color c)
  | none => (parseInt cs).map .int

/-- The operands of a line: none, or one between each two commas. -/
def parseOperands (cs : List Char) : Option (List AsmOperand) :=
  if (trimBlanks cs).isEmpty then some [] else ((cs.splitOn ',').map trimBlanks).mapM parseOperand

/-- One line of assembler text (R69). `;` starts a comment; a line without a command gives none. -/
def assembleLine (line : String) : Option (List Instr) :=
  let text := trimBlanks (line.toList.takeWhile (fun c => c != ';'))
  if text.isEmpty then some []
  else
    let m := text.takeWhile (fun c => !isBlank c)
    (parseOperands (text.dropWhile (fun c => !isBlank c))).bind (assemble (String.ofList m))

/-- The command words of a program text, line by line. A program with a refused line is refused whole and gives no words of any
line: the model's choice, R69 speaks of a line's operand only (log entry 13, DESIGN CHOICE). -/
def assembleProgram (lines : List String) : Option (List CmdWord) :=
  (lines.mapM assembleLine).map (fun iss => iss.flatten.map encode)

end Sys2Proof.Machine
end

