-- ==== Sys2Proof/Machine/Output.lean ====
section
/-! DEFINITION. What the outputs show: the address lines of the row/column multiplexer (47_pwm_mux.md R184), the pin
directions (R180) and the physical duty cycle of a channel (R186). Nothing here changes the state. -/

namespace Sys2Proof.Machine

/-- The lines of the multiplexer during one channel write (R184): a 3-bit row address, a 3-bit column address, a 2-bit colour
select and the 8-bit intensity. -/
structure MuxLines where
  rowAddr : BitVec 3
  colAddr : BitVec 3
  csel : BitVec 2
  intensity : Byte
deriving DecidableEq, Repr

/-- The lines that `Emit(i, v)` drives (R182, R184). -/
def muxLines (w : ChannelWrite) : MuxLines where
  rowAddr := BitVec.ofNat 3 (channelRow w.1).val
  colAddr := BitVec.ofNat 3 (channelColumn w.1).val
  csel := BitVec.ofNat 2 (channelComponent w.1).val
  intensity := w.2

/-- The lines of every write of a frame, in order. -/
def Frame.muxTrace (f : Frame) : List MuxLines := f.writes.map muxLines

/-- A pin that `PIN_MAP` gives a row-address, a column-address or a PWM output is driven as an output once `ConfigurePins` has
run (R180); the spec gives no pin a direction before that, and no other pin a direction at all (`none`). -/
def State.pinIsOutput (s : State) (pin : Nat) : Option Bool :=
  if s.pinsCfg && Config.pinMap.any (fun a => a.pin == pin && a.line.setByConfigurePins) then some true else none

/-- The physical duty cycle of channel i (R186) at the host's observation number `t`: `DUTY_MAP(CH[i], PWM_RES)`, and any
value while the channel (or the latched resolution) is ⊥. -/
def State.physicalDuty (s : State) (t : Nat) (i : ChannelId) : Rat :=
  match s.ch.get i, s.pwmRes with
  | some v, some r => Config.dutyMap v r
  | _, _ => Config.undefinedDuty t i

end Sys2Proof.Machine
end

