-- ==== Sys2Proof/Machine/Stream.lean ====
section
/-! DEFINITION. A host's sequence of commands (20_memory.md R49, 30_encoding.md R71): one word after another, each run to
completion before the next. The machine's own step answers a refused word with the outcome `refused`, which carries no state;
the state such a word leaves is given here (R65, R66, R202). -/

namespace Sys2Proof.Machine

/-- The state after one step, whatever its outcome: after a refusal only the refusal mark is set (R202). No step faults (R200).
That there is a state to go on from after a refusal is the model's own reading (log entry 5). -/
def afterStep (s : State) : State :=
  match step s with
  | .next t => t
  | .refused _ => s.refuse
  | .fault _ => s

/-- The state after the host has issued a word and the block has taken it. The host keeps R226's duty: where a word is still on
the port, it waits for that word's step, which runs it and frees the port, and only then delivers its own; no word is dropped.
That the model's host waits is its own choice (log entry 12): of a host that does not, the spec says nothing. -/
def afterCommand (s : State) (w : CmdWord) : State := afterStep ((afterStep s).withCommand w)

/-- The state after a sequence of words, in the order the host issues them (R49). A claim about a sequence is a claim about
the commands the spec gives a meaning only while the refusal mark is clear (R202). -/
def afterStream (s : State) (ws : List CmdWord) : State := ws.foldl afterCommand s

/-- The responses the host reads, one after each command (R67). -/
def responses (s : State) : List CmdWord → List (Except Fault RespWord)
  | [] => []
  | w :: ws => hostReadResponse (afterCommand s w) :: responses (afterCommand s w) ws

end Sys2Proof.Machine
end

