-- ==== Sys2Proof/Safety.lean ====
section
/-! DEFINITION. The terms in which the statements speak: what the outputs show after a refresh, the invariant of the machine,
the loop of the circle as a relation, and what a refused step is. -/

namespace Sys2Proof.Machine

/-! ## After a refresh -/

/-- The cell whose component channel i carries, by R183's inverse: 8·(i div 24) + (i mod 24) div 3. -/
def channelCell (i : ChannelId) : Nat := 8 * (i.val / 24) + i.val % 24 / 3

/-- The intensity that the state's framebuffer and brightness give channel i: the scaled component of its cell (R111, R183). -/
def shownIntensity (s : State) (i : ChannelId) : Byte :=
  scale (colorComponent (s.readCell (channelCell i)) (channelComponent i)) s.bright

/-- `t` shows its own framebuffer at its own brightness as a refresh leaves it, its trace being `before` and one more frame:
the frame carries `Begun` and the 192 writes in the order of their channels (R110, R112, R114), and every channel holds its
write when `Begun`, and ⊥ otherwise (R182). -/
structure ShowsOneMoreFrame (before : List Frame) (t : State) : Prop where
  trace : ∃ f, t.log = before ++ [f] ∧ f.cfg = t.begun ∧ f.writes.length = 192 ∧
    ∀ i : ChannelId, f.writes[i.val]? = some (i, shownIntensity t i)
  channels : ∀ i : ChannelId, t.ch.get i = if t.begun then some (shownIntensity t i) else none

/-- The effect of a shape command (R140): the cells of the set `lit` that are in range hold `c`, every other cell and every
other piece of state is unchanged but for the refresh and the response. -/
structure ShapeEffect (lit : Int → Int → Prop) (c : Color) (s t : State) : Prop where
  frame : t = { s with fb := t.fb, ch := t.ch, log := t.log, resp := some 0 }
  inside : ∀ u v : Int, InRange u v → lit u v → t.readCell (idx u v) = c
  outside : ∀ u v : Int, InRange u v → ¬ lit u v → t.readCell (idx u v) = s.readCell (idx u v)
  shown : ShowsOneMoreFrame s.log t

/-- The effect of a whole-buffer fill with `c` and response `r` (R103): every cell holds `c`; the rest as for a shape. -/
structure FillEffect (c : Color) (r : RespWord) (s t : State) : Prop where
  frame : t = { s with fb := t.fb, ch := t.ch, log := t.log, resp := some r }
  cells : ∀ a : Nat, a < 64 → t.readCell a = c
  shown : ShowsOneMoreFrame s.log t

/-! ## Several commands in a row -/

/-- `Runs s is t`: the commands `is`, one after another, each complete and take `s` to `t` (R49). -/
inductive Runs : State → List Instr → State → Prop where
  | nil (s : State) : Runs s [] s
  | cons (s t u : State) (i : Instr) (is : List Instr) : exec i s = .next t → Runs t is u → Runs s (i :: is) u

/-! ## The loop of DRAWCIRCLE as a relation (R145) -/

/-- `CircleVisits r x y d`: the loop of R145 for radius r comes to its test `while x >= y` with these x, y and d. The step
order is the spec's decision D28. -/
inductive CircleVisits (r : Int) : Int → Int → Int → Prop where
  | start : CircleVisits r r 0 (3 - 2 * r)
  | keepX (x y d : Int) : CircleVisits r x y d → x ≥ y → d ≤ 0 → CircleVisits r x (y + 1) (d + 4 * y + 6)
  | stepX (x y d : Int) : CircleVisits r x y d → x ≥ y → ¬ d ≤ 0 →
      CircleVisits r (x - 1) (y + 1) (d + 4 * (y - x) + 10)

/-- (u, v) is one of the eight points that R145 plots in some pass of its loop. -/
def OnCircle (x0 y0 r u v : Int) : Prop :=
  ∃ x y d, CircleVisits r x y d ∧ x ≥ y ∧
    ((u = x0 + x ∧ v = y0 + y) ∨ (u = x0 - x ∧ v = y0 + y) ∨ (u = x0 + x ∧ v = y0 - y) ∨ (u = x0 - x ∧ v = y0 - y) ∨
     (u = x0 + y ∧ v = y0 + x) ∨ (u = x0 - y ∧ v = y0 + x) ∨ (u = x0 + y ∧ v = y0 - x) ∨ (u = x0 - y ∧ v = y0 - x))

/-! ## The invariant of the machine -/

/-- What holds at reset and is kept by every step. -/
structure Inv (s : State) : Prop where
  /-- The framebuffer is in its canonical form. -/
  fb_wf : s.fb.wf = true
  /-- The pins and the PWM are configured together, by BEGIN alone (R80, R189). -/
  configured_together : s.pinsCfg = s.pwmCfg
  /-- The latches hold the configured constants once the PWM is configured, ⊥ before (R24). -/
  latched_freq : s.pwmFreq = if s.pwmCfg then some Config.pwmFrequency else none
  latched_res : s.pwmRes = if s.pwmCfg then some Config.pwmResolution else none
  /-- Every frame writes every channel once, in the order 0..191 (R112, R114). -/
  frame_ids : ∀ f ∈ s.log, f.writes.map Prod.fst = List.finRange 192
  /-- Frames recorded before BEGIN come before all the others, and before BEGIN there is no other (R27, R222). -/
  frame_order : s.log.Pairwise (fun f g => f.cfg = true → g.cfg = true)
  frames_unbegun : s.begun = false → ∀ f ∈ s.log, f.cfg = false
  /-- Before BEGIN every channel is ⊥ (R22, R182, R222). -/
  channels_unbegun : s.begun = false → ∀ i : ChannelId, s.ch.get i = none
  /-- After BEGIN the channels hold exactly the writes of the last frame (R185). -/
  channels_begun : s.begun = true →
    ∃ f, s.log.getLast? = some f ∧ f.cfg = true ∧ ∀ w ∈ f.writes, s.ch.get w.1 = some w.2
  /-- `RESP` never uses its top byte (R67, R91). -/
  resp_top : ∀ r, s.resp = some r → r.extractLsb' 24 8 = 0#8
  /-- While no command has completed there is no frame (R26, R27). -/
  resp_first : s.resp = none → s.log = []

/-! ## Stops -/

/-- A safe run: no word of it was refused (R202). A claim about a stream of commands is made of its safe states. -/
def Safe (s : State) : Prop := s.refusalMark = false

end Sys2Proof.Machine
end

