-- ==== Sys2Proof/Certificates/Slice0/Obligations.lean ====
section
/-! DEFINITION. The statements about the model, for the provers. Where a rule carries one of the spec's own decisions D<n>
(92_eei_decisions.md), its docstring names it. -/

open Sys2Proof Sys2Proof.Machine

/-! ## Command words -/

/-- The worked encodings of R73 and of the test vectors, one word at least for each family, read as the spec says
(tier 1, a sanity check; the encoding is the spec's decisions D2 to D7). -/
def Obligations.WorkedEncodingsDecode : Prop :=
  decode 0x3302020303FF0000#64 = .ok (.fillRect 2 2 3 3 0xFF0000#24) ∧
  decode 0x3404040300FFFFFF#64 = .ok (.drawCircle 4 4 3 0xFFFFFF#24) ∧
  decode 0x10FF03000000FF00#64 = .ok (.setPixel (-1) 3 0x00FF00#24) ∧
  decode 0x030000C800000000#64 = .ok (.setBright 200#8) ∧
  decode 0x0100000000000000#64 = .ok .begin ∧
  decode 0x0200000000000000#64 = .ok .update ∧
  decode 0x2100000000102030#64 = .ok (.clearColor 0x102030#24) ∧
  decode 0x3100FE040000FF00#64 = .ok (.drawVLine 0 (-2) 4 0x00FF00#24) ∧
  decode 0x0000000000000000#64 = .error .reservedOpcode ∧
  decode 0x0100000000000001#64 = .error .nonzeroSbz ∧
  decode 0xFF12345678ABCDEF#64 = .error .reservedOpcode

/-- Decoding an encoded well-formed command gives it back, every operand at every value its field admits (R60 to R63). -/
def Obligations.DecodeOfEncode : Prop :=
  ∀ i : Instr, WellFormed i → decode (encode i) = .ok i

/-- Each word has one meaning: a word that decodes to a command is that command's own encoding, and the command is
well-formed (R60 to R63, R66). -/
def Obligations.EncodeOfDecode : Prop :=
  ∀ (w : CmdWord) (i : Instr), decode w = .ok i → WellFormed i ∧ encode i = w

/-- From R63: a row's mask covers the opcode and every field that R62 does not list for the command, and nothing else. -/
def Obligations.MaskCoversOpcodeAndUnusedFields : Prop :=
  ∀ r ∈ opRows, ∀ w : CmdWord,
    w &&& r.mask = r.pattern ↔ (opField w = opcodeByte r.opcode ∧ sbzZero r.opcode w = true)

/-- No word is two commands (R63). -/
def Obligations.AtMostOneRowMatches : Prop :=
  ∀ r₁ ∈ opRows, ∀ r₂ ∈ opRows, ∀ w : CmdWord, w &&& r₁.mask = r₁.pattern → w &&& r₂.mask = r₂.pattern → r₁ = r₂

/-- R65 (decision D7): a word whose opcode is reserved, whatever its other bits, is refused as `ReservedOpcode`; the refusal
mark is set and no other state of the block changes. (Of the command port, the model's own field of log entry 3, nothing is
said. The state left is `afterStep`'s, since the outcome carries none: log entry 5.) -/
def Obligations.ReservedOpcodeRefused : Prop :=
  ∀ (s : State) (w : CmdWord), s.pending = some w →
    (let op := (w.extractLsb' 56 8).toNat
     op = 0 ∨ (0x05 ≤ op ∧ op ≤ 0x0F) ∨ (0x12 ≤ op ∧ op ≤ 0x1F) ∨ (0x23 ≤ op ∧ op ≤ 0x2F) ∨ 0x36 ≤ op) →
    step s = .refused .reservedOpcode ∧ afterStep s = { s with refusalMark := true, pending := (afterStep s).pending }

/-- R66 (decision D6): a word with an opcode of R63's table and a nonzero bit in a field that R62 does not list for it is
refused as `NonzeroSBZ`; the refusal mark is set (R202) and no other state of the block changes. (Of the command port, the
model's own field of log entry 3, nothing is said. The state left is `afterStep`'s, since the outcome carries none: log
entry 5.) -/
def Obligations.NonzeroSbzRefused : Prop :=
  ∀ (s : State) (w : CmdWord) (op : Opcode), s.pending = some w → w.extractLsb' 56 8 = opcodeByte op →
    (((fieldUse op).x = false ∧ w.extractLsb' 48 8 ≠ 0#8) ∨ ((fieldUse op).y = false ∧ w.extractLsb' 40 8 ≠ 0#8) ∨
     ((fieldUse op).p = false ∧ w.extractLsb' 32 8 ≠ 0#8) ∨ ((fieldUse op).q = false ∧ w.extractLsb' 24 8 ≠ 0#8) ∨
     ((fieldUse op).color = false ∧ w.extractLsb' 0 24 ≠ 0#24)) →
    step s = .refused .nonzeroSbz ∧ afterStep s = { s with refusalMark := true, pending := (afterStep s).pending }

/-- R43 (decision D10): a byte-serial binding carries a command word and a response word the most significant byte first, so
the bytes read as one number in base 256 are the word, and the block takes the same word off the stream. -/
def Obligations.ByteSerialMostSignificantFirst : Prop :=
  (∀ (w : CmdWord) (rest : List Byte), takeWord (cmdBytes w ++ rest) = some (w, rest) ∧
    (cmdBytes w).length = 8 ∧ (cmdBytes w).foldl (fun n b => 256 * n + b.toNat) 0 = w.toNat) ∧
  (∀ r : RespWord, (respBytes r).length = 4 ∧ (respBytes r).foldl (fun n b => 256 * n + b.toNat) 0 = r.toNat)

/-! ## The step -/

/-- A step runs the command the port's word decodes to, on the state whose port is free again (R71); it adds nothing else. The
port as a field of the state is the model's own (log entry 3). -/
def Obligations.StepRunsDecodedCommand : Prop :=
  ∀ (s : State) (w : CmdWord) (i : Instr), s.pending = some w → decode w = .ok i →
    step s = exec i { s with pending := none }

/-- With no command on the port a step holds the whole state, its outputs included (R185, decision D17), and so it does right
after reset, where the block waits for its first command (R220). A step without a command is the model's choice (log entry 3). -/
def Obligations.IdleStepHoldsEverything : Prop :=
  (∀ s : State, s.pending = none → step s = .next s) ∧ step State.reset = .next State.reset

/-- R200: no command faults or is refused, whatever its operands and the state, so a step never faults. -/
def Obligations.CommandsNeverStop : Prop :=
  (∀ (i : Instr) (s : State), ∃ t, exec i s = .next t) ∧ (∀ (s : State) (f : Fault), step s ≠ .fault f)

/-- From R226 (decision D9): the host has no move that delivers a word while one is outstanding; delivering one to a free port
changes the port alone; after any step the port is free again. So a host that waits for the outstanding word's step, as the
host of `afterCommand` does, always has the move. The port as a field of the state, and the waiting host, are the model's own
(log entries 3, 12); that a refused word too leaves a state, with the port free, is log entry 5 (DEDUCED). -/
def Obligations.DeliverNeedsFreePort : Prop :=
  ∀ (s : State) (w : CmdWord),
    (s.pending ≠ none → deliver w s = none) ∧ (s.pending = none → deliver w s = some { s with pending := some w }) ∧
    ∃ t, deliver w (afterStep s) = some t ∧ afterCommand s w = afterStep t

/-- R67 (decisions D8, D22): what each completed command leaves in `RESP`; a refused word leaves `RESP` unchanged
(the state it leaves is `afterStep`'s, log entry 5). -/
def Obligations.ResponseOfEachCommand : Prop :=
  (∀ (i : Instr) (s t : State), exec i s = .next t →
    t.resp = some (match i with
      | .getPixel x y => if InRange x y then (s.readCell (idx x y)).setWidth 32 else 0x00000000#32
      | .getBright => s.bright.setWidth 32
      | .begin => 0x00000001#32
      | .update | .setBright _ | .setPixel _ _ _ | .clear | .clearColor _ | .fillColor _ => 0x00000000#32
      | .drawHLine _ _ _ _ | .drawVLine _ _ _ _ | .drawRect _ _ _ _ _ | .fillRect _ _ _ _ _ => 0x00000000#32
      | .drawCircle _ _ _ _ | .fillCircle _ _ _ _ => 0x00000000#32)) ∧
  (∀ (s : State) (r : Refusal), step s = .refused r → (afterStep s).resp = s.resp)

/-- R114 (decisions D21, D39): a command that refreshes appends exactly one frame of 192 writes, one for each channel in turn;
every other command, and a refused word, appends none and writes no channel (the state a refused word leaves is `afterStep`'s,
log entry 5). -/
def Obligations.FramesPerCommand : Prop :=
  (∀ (i : Instr) (s t : State), exec i s = .next t →
    match i with
    | .setPixel _ _ _ | .getPixel _ _ | .setBright _ | .getBright => t.log = s.log ∧ t.ch = s.ch
    | _ => ∃ f, t.log = s.log ++ [f] ∧ f.writes.map Prod.fst = List.finRange 192) ∧
  (∀ (s : State) (r : Refusal), step s = .refused r → (afterStep s).log = s.log ∧ (afterStep s).ch = s.ch)

/-! ## Reset and the host's read -/

/-- R220 (decision D34): what reset leaves, and that a platform reset or a power-on leaves the same from every state.
`DEFAULT_BRIGHTNESS` is the open parameter. -/
def Obligations.ResetValues : Prop :=
  (∀ a : Nat, a < 64 → State.reset.readCell a = 0x000000#24) ∧ State.reset.bright = Config.defaultBrightness ∧
  (∀ i : ChannelId, State.reset.ch.get i = none) ∧ State.reset.pinsCfg = false ∧ State.reset.pwmCfg = false ∧
  State.reset.pwmFreq = none ∧ State.reset.pwmRes = none ∧ State.reset.resp = none ∧ State.reset.log = [] ∧
  State.reset.refusalMark = false ∧ (∀ s : State, platformReset s = State.reset)

/-- From R26 (decision D8): a host read of `RESP` faults before the first command completes, and after any completed command it
reads what that command wrote. -/
def Obligations.ResponseReadFaultsOnlyAtFirst : Prop :=
  hostReadResponse State.reset = .error .respUndefined ∧
  ∀ (i : Instr) (s t : State), exec i s = .next t → ∃ v, t.resp = some v ∧ hostReadResponse t = .ok v

/-- The invariant holds at reset. Its clause on the framebuffer's canonical form is the model's own (log entry 2). -/
def Obligations.ResetMeetsInvariant : Prop := Inv State.reset

/-- Every step keeps the invariant, from every state that meets it: the framebuffer's canonical form (the model's own, log
entry 2), the configuration and its latches, the shape and order of the trace, and what the channels hold before and after BEGIN. -/
def Obligations.StepKeepsInvariant : Prop :=
  ∀ s t : State, Inv s → step s = .next t → Inv t

/-- Every sequence of words that a host issues, refused ones among them, keeps the invariant. That a stream goes on after a
refused word is the model's own choice (log entry 5): of a stream with such a word this is a claim about the model alone, which
R202 calls unprovable of the hardware. The invariant's canonical form is the model's own (log entry 2), and so is the host that
waits for an outstanding word (log entry 12). -/
def Obligations.StreamKeepsInvariant : Prop :=
  ∀ (ws : List CmdWord) (s : State), Inv s → Inv (afterStream s ws)

/-! ## The framebuffer -/

/-- From R9 and R40: a write replaces the whole cell and leaves every other cell alone, in every framebuffer; and it keeps the
canonical form, which is the model's own (log entry 2). -/
def Obligations.CellWriteLaws : Prop :=
  ∀ (m : Memory) (a : Nat) (c : Color),
    (m.write a c).read a = c ∧ (∀ b : Nat, b ≠ a → (m.write a c).read b = m.read b) ∧
    (a < 64 → m.wf = true → (m.write a c).wf = true)

/-! ## Pixel access -/

/-- R90: SETPIXEL's word, and its effect: the cell `8*Y + X` (R10) when the coordinate is in range, otherwise no cell; RESP is
0 and nothing else changes, so nothing is emitted. -/
def Obligations.SetPixelWritesOneCell : Prop :=
  (∀ x y : Int, (InRange x y ↔ (0 ≤ x ∧ x < 8) ∧ (0 ≤ y ∧ y < 8)) ∧ (InRange x y → (idx x y : Int) = 8 * y + x)) ∧
  (∀ w : CmdWord, w &&& 0xFF0000FFFF000000#64 = 0x1000000000000000#64 →
    decode w = .ok (.setPixel (w.extractLsb' 48 8).toInt (w.extractLsb' 40 8).toInt (w.extractLsb' 0 24))) ∧
  ∀ (x y : Int) (c : Color) (s : State), ∃ t, exec (.setPixel x y c) s = .next t ∧
    t = { s with fb := t.fb, resp := some 0x00000000#32 } ∧
    (InRange x y → t.readCell (idx x y) = c) ∧
    (∀ a : Nat, ¬ (InRange x y ∧ a = idx x y) → t.readCell a = s.readCell a)

/-- R91: GETPIXEL's word, and its effect: RESP gets the cell, or black out of range, and nothing else changes. -/
def Obligations.GetPixelReadsOneCell : Prop :=
  (∀ w : CmdWord, w &&& 0xFF0000FFFFFFFFFF#64 = 0x1100000000000000#64 →
    decode w = .ok (.getPixel (w.extractLsb' 48 8).toInt (w.extractLsb' 40 8).toInt)) ∧
  ∀ (x y : Int) (s : State),
    exec (.getPixel x y) s =
      .next { s with resp := some (if InRange x y then (s.readCell (idx x y)).setWidth 32 else 0x00000000#32) }

/-- R92 (the spec's inference from R90 and R91): out of range, negative coordinates included, SETPIXEL changes no cell and
GETPIXEL answers 0. -/
def Obligations.BoundsSafety : Prop :=
  ∀ (x y : Int) (c : Color) (s : State), (x < 0 ∨ 8 ≤ x ∨ y < 0 ∨ 8 ≤ y) →
    (∃ t, exec (.setPixel x y c) s = .next t ∧ t.fb = s.fb) ∧
    (∃ t, exec (.getPixel x y) s = .next t ∧ t.resp = some 0x00000000#32)

/-- From R49's example: a GETPIXEL right after a SETPIXEL of an in-range cell answers its colour, and one of another in-range cell
answers what it held before. -/
def Obligations.GetPixelSeesEarlierSetPixel : Prop :=
  ∀ (x y u v : Int) (c : Color) (s : State), InRange x y → InRange u v →
    ∃ t r, exec (.setPixel x y c) s = .next t ∧ exec (.getPixel u v) t = .next r ∧
      r.resp = some (if u = x ∧ v = y then c.setWidth 32 else (s.readCell (idx u v)).setWidth 32)

/-! ## Brightness -/

/-- R130: SETBRIGHT's word, and its effect: BRIGHT is BVAL, unsigned, RESP is 0, and nothing else changes. -/
def Obligations.SetBrightWritesBrightness : Prop :=
  (∀ w : CmdWord, w &&& 0xFFFFFF00FFFFFFFF#64 = 0x0300000000000000#64 → decode w = .ok (.setBright (w.extractLsb' 32 8))) ∧
  ∀ (v : Byte) (s : State), exec (.setBright v) s = .next { s with bright := v, resp := some 0x00000000#32 }

/-- R131: GETBRIGHT's word, and its effect: RESP is BRIGHT, zero-extended, and nothing else changes. -/
def Obligations.GetBrightReadsBrightness : Prop :=
  decode 0x0400000000000000#64 = .ok .getBright ∧
  (∀ w : CmdWord, decode w = .ok .getBright → w = 0x0400000000000000#64) ∧
  ∀ s : State, exec .getBright s = .next { s with resp := some (s.bright.setWidth 32) }

/-- R132: a SETBRIGHT, and any commands without a refresh after it, leave the channels and the trace as the last refresh left
them; the next command that refreshes, whichever it is, shows its framebuffer at the brightness then in force, in its frame and
in the channels. That brightness is the SETBRIGHT's unless another SETBRIGHT came between. -/
def Obligations.BrightnessShowsAtNextRefresh : Prop :=
  ∀ (v : Byte) (s : State), ∃ t, exec (.setBright v) s = .next t ∧ t.bright = v ∧ t.ch = s.ch ∧ t.log = s.log ∧
    ∀ quiet : List Instr, (∀ i ∈ quiet, i.opcode.refreshes = false) →
      ∃ u, Runs t quiet u ∧ u.ch = s.ch ∧ u.log = s.log ∧ ((∀ i ∈ quiet, i.opcode ≠ .setBright) → u.bright = v) ∧
        ∀ i : Instr, i.opcode.refreshes = true →
          ∃ r, exec i u = .next r ∧ r.bright = u.bright ∧ ShowsOneMoreFrame s.log r

/-- From R21: SETBRIGHT is the only writer of BRIGHT. -/
def Obligations.OnlySetBrightWritesBrightness : Prop :=
  ∀ (i : Instr) (s t : State), exec i s = .next t →
    (∃ v, i = .setBright v ∧ t.bright = v) ∨ ((∀ v, i ≠ .setBright v) ∧ t.bright = s.bright)

/-! ## Refresh -/

/-- R111: `Scale(c, b)` is the exact quotient of the exact product; nothing is lost in the 8 bits of the result. -/
def Obligations.ScaleIsTruncatedQuotient : Prop :=
  ∀ c b : Byte, (scale c b).toNat = c.toNat * b.toNat / 255

/-- R115 (the spec's inference from R111): zero, identity at 255, symmetry, the bound, monotonicity, and strict loss below 255. -/
def Obligations.ScaleProperties : Prop :=
  (∀ c, scale c 0#8 = 0#8) ∧ (∀ c, scale c 255#8 = c) ∧ (∀ b, scale 0#8 b = 0#8) ∧ (∀ c b, scale c b = scale b c) ∧
  (∀ c b, scale c b ≤ c ∧ scale c b ≤ b) ∧ (∀ c c' b, c ≤ c' → scale c b ≤ scale c' b) ∧
  (∀ c b, 0#8 < c → b < 255#8 → scale c b < c)

/-- R110 and R112 (decision D15 for the order): UPDATE's word, and its effect: one more frame of 192 writes in channel order,
each the scaled component of its cell, `cfg` being Begun; the channels follow when Begun and are ⊥ otherwise; RESP is 0 and
nothing else changes. -/
def Obligations.UpdateShowsFramebuffer : Prop :=
  decode 0x0200000000000000#64 = .ok .update ∧ (∀ w : CmdWord, decode w = .ok .update → w = 0x0200000000000000#64) ∧
  ∀ s : State, ∃ t, exec .update s = .next t ∧
    t = { s with ch := t.ch, log := t.log, resp := some 0x00000000#32 } ∧ ShowsOneMoreFrame s.log t

/-- R113: any number of refreshes changes neither FB nor BRIGHT, so a GETPIXEL after them answers the unscaled colour. -/
def Obligations.RefreshKeepsStoredColors : Prop :=
  ∀ (n : Nat) (s : State),
    (Nat.iterate State.refresh n s).fb = s.fb ∧ (Nat.iterate State.refresh n s).bright = s.bright ∧
    ∀ x y : Int, InRange x y →
      ∃ t, exec (.getPixel x y) (Nat.iterate State.refresh n s) = .next t ∧ t.resp = some ((s.readCell (idx x y)).setWidth 32)

/-- R46 (the spec's inference from R45, R110 and R113): two UPDATEs in a row emit frames with identical writes. -/
def Obligations.RepeatedUpdateRepeatsWrites : Prop :=
  ∀ s : State, ∃ t u f g, exec .update s = .next t ∧ exec .update t = .next u ∧
    u.log = s.log ++ [f, g] ∧ f.writes = g.writes

/-- From R182 and R184 (decisions D16, D20): `Emit` drives its channel's address lines and defines its channel when Begun, sets it to ⊥
otherwise, and leaves every other channel and every other piece of state alone. -/
def Obligations.EmitWritesOneChannel : Prop :=
  ∀ (s : State) (i : ChannelId) (v : Byte),
    s.emit (i, v) = { s with ch := (s.emit (i, v)).ch } ∧
    (s.emit (i, v)).ch.get i = (if s.pinsCfg ∧ s.pwmCfg then some v else none) ∧
    (∀ j : ChannelId, j ≠ i → (s.emit (i, v)).ch.get j = s.ch.get j) ∧
    (muxLines (i, v)).rowAddr.toNat = i.val / 24 ∧ (muxLines (i, v)).colAddr.toNat = i.val % 24 / 3 ∧
    (muxLines (i, v)).csel.toNat = i.val % 3 ∧ (muxLines (i, v)).intensity = v

/-! ## BEGIN and the bulk fills -/

/-- R80: BEGIN's word, and its effect: pins and PWM configured, the constants latched, every cell black, every channel 0, one
more frame with `cfg` true and 192 writes of 0, RESP 1, and nothing else changed, BRIGHT included. -/
def Obligations.BeginConfiguresAndClears : Prop :=
  decode 0x0100000000000000#64 = .ok .begin ∧ (∀ w : CmdWord, decode w = .ok .begin → w = 0x0100000000000000#64) ∧
  ∀ s : State, ∃ t, exec .begin s = .next t ∧
    t = { s with
      fb := t.fb, ch := t.ch, log := t.log, pinsCfg := true, pwmCfg := true, pwmFreq := some Config.pwmFrequency,
      pwmRes := some Config.pwmResolution, resp := some 0x00000001#32 } ∧
    (∀ a : Nat, a < 64 → t.readCell a = 0x000000#24) ∧ (∀ i : ChannelId, t.ch.get i = some 0#8) ∧
    t.log = s.log ++ [⟨true, (List.finRange 192).map (fun i => (i, 0#8))⟩]

/-- R81 (decision D23): a BEGIN issued again acts like the first: but for one more frame, equal to the last, it leaves the
state that the first left. -/
def Obligations.BeginAgainActsLikeFirst : Prop :=
  ∀ s t : State, exec .begin s = .next t →
    ∃ f, t.log.getLast? = some f ∧ exec .begin t = .next { t with log := t.log ++ [f] }

/-- R103 with R100: CLEAR's word, and its effect: every cell black, then one refresh whose 192 writes are all 0. -/
def Obligations.ClearBlackensEveryCell : Prop :=
  decode 0x2000000000000000#64 = .ok .clear ∧ (∀ w : CmdWord, decode w = .ok .clear → w = 0x2000000000000000#64) ∧
  ∀ s : State, ∃ t, exec .clear s = .next t ∧ FillEffect 0x000000#24 0x00000000#32 s t ∧
    t.log = s.log ++ [⟨s.begun, (List.finRange 192).map (fun i => (i, 0#8))⟩]

/-- R103 with R101: CLEARCOLOR's word, and its effect: every cell COLOR, then one refresh that shows it. -/
def Obligations.ClearColorFillsEveryCell : Prop :=
  (∀ w : CmdWord, w &&& 0xFFFFFFFFFF000000#64 = 0x2100000000000000#64 → decode w = .ok (.clearColor (w.extractLsb' 0 24))) ∧
  ∀ (c : Color) (s : State), ∃ t, exec (.clearColor c) s = .next t ∧ FillEffect c 0x00000000#32 s t

/-- R103 with R102: FILLCOLOR's word, and its effect, the same as CLEARCOLOR's. -/
def Obligations.FillColorFillsEveryCell : Prop :=
  (∀ w : CmdWord, w &&& 0xFFFFFFFFFF000000#64 = 0x2200000000000000#64 → decode w = .ok (.fillColor (w.extractLsb' 0 24))) ∧
  ∀ (c : Color) (s : State), ∃ t, exec (.fillColor c) s = .next t ∧ FillEffect c 0x00000000#32 s t ∧
    exec (.clearColor c) s = .next t

/-- R104 (the spec's inference): after CLEAR every in-range GETPIXEL answers 0, and a second CLEAR leaves the framebuffer as
it is (equal data) while appending one more frame. -/
def Obligations.ClearIsIdempotent : Prop :=
  ∀ s : State, ∃ t u f, exec .clear s = .next t ∧
    (∀ x y : Int, InRange x y → ∃ r, exec (.getPixel x y) t = .next r ∧ r.resp = some 0x00000000#32) ∧
    exec .clear t = .next u ∧ u.fb = t.fb ∧ u.log = t.log ++ [f]

/-! ## Shapes -/

/-- R140, R141 (decision D25): DRAWHLINE's word, and its effect: the run of `p` cells going right from (x, y), clipped. -/
def Obligations.DrawHLineEffect : Prop :=
  (∀ w : CmdWord, w &&& 0xFF000000FF000000#64 = 0x3000000000000000#64 →
    decode w = .ok (.drawHLine (w.extractLsb' 48 8).toInt (w.extractLsb' 40 8).toInt (w.extractLsb' 32 8).toInt (w.extractLsb' 0 24))) ∧
  ∀ (x y p : Int) (c : Color) (s : State), ∃ t, exec (.drawHLine x y p c) s = .next t ∧
    ShapeEffect (fun u v => v = y ∧ x ≤ u ∧ u < x + p) c s t

/-- R140, R142 (decision D25): DRAWVLINE's word, and its effect: the run of `p` cells going down from (x, y), clipped. -/
def Obligations.DrawVLineEffect : Prop :=
  (∀ w : CmdWord, w &&& 0xFF000000FF000000#64 = 0x3100000000000000#64 →
    decode w = .ok (.drawVLine (w.extractLsb' 48 8).toInt (w.extractLsb' 40 8).toInt (w.extractLsb' 32 8).toInt (w.extractLsb' 0 24))) ∧
  ∀ (x y p : Int) (c : Color) (s : State), ∃ t, exec (.drawVLine x y p c) s = .next t ∧
    ShapeEffect (fun u v => u = x ∧ y ≤ v ∧ v < y + p) c s t

/-- R140, R143 (decision D26): DRAWRECT's word, and its effect: the border of the p × q box at (x, y), clipped; no cell when
p ≤ 0 or q ≤ 0. -/
def Obligations.DrawRectEffect : Prop :=
  (∀ w : CmdWord, w &&& 0xFF00000000000000#64 = 0x3200000000000000#64 →
    decode w = .ok (.drawRect (w.extractLsb' 48 8).toInt (w.extractLsb' 40 8).toInt (w.extractLsb' 32 8).toInt
      (w.extractLsb' 24 8).toInt (w.extractLsb' 0 24))) ∧
  ∀ (x y p q : Int) (c : Color) (s : State), ∃ t, exec (.drawRect x y p q c) s = .next t ∧
    ShapeEffect (fun u v => (x ≤ u ∧ u < x + p) ∧ (y ≤ v ∧ v < y + q) ∧
      (u = x ∨ u = x + p - 1 ∨ v = y ∨ v = y + q - 1)) c s t

/-- R140, R144 (decision D27 for sizes ≤ 0): FILLRECT's word, and its effect: the whole p × q box at (x, y), clipped. -/
def Obligations.FillRectEffect : Prop :=
  (∀ w : CmdWord, w &&& 0xFF00000000000000#64 = 0x3300000000000000#64 →
    decode w = .ok (.fillRect (w.extractLsb' 48 8).toInt (w.extractLsb' 40 8).toInt (w.extractLsb' 32 8).toInt
      (w.extractLsb' 24 8).toInt (w.extractLsb' 0 24))) ∧
  ∀ (x y p q : Int) (c : Color) (s : State), ∃ t, exec (.fillRect x y p q c) s = .next t ∧
    ShapeEffect (fun u v => (x ≤ u ∧ u < x + p) ∧ (y ≤ v ∧ v < y + q)) c s t

/-- From R145 in the spec's step order (decision D28, which the spec takes from general knowledge, log entry 9; D29 for r < 0): DRAWCIRCLE's word, and its effect: every point that some pass
of the loop plots, clipped. -/
def Obligations.DrawCircleEffect : Prop :=
  (∀ w : CmdWord, w &&& 0xFF000000FF000000#64 = 0x3400000000000000#64 →
    decode w = .ok (.drawCircle (w.extractLsb' 48 8).toInt (w.extractLsb' 40 8).toInt (w.extractLsb' 32 8).toInt (w.extractLsb' 0 24))) ∧
  ∀ (x0 y0 r : Int) (c : Color) (s : State), ∃ t, exec (.drawCircle x0 y0 r c) s = .next t ∧
    ShapeEffect (OnCircle x0 y0 r) c s t

/-- R140, R146 (decision D29 for r < 0): FILLCIRCLE's word, and its effect: every cell within distance r of (x0, y0), clipped;
no cell when r < 0. -/
def Obligations.FillCircleEffect : Prop :=
  (∀ w : CmdWord, w &&& 0xFF000000FF000000#64 = 0x3500000000000000#64 →
    decode w = .ok (.fillCircle (w.extractLsb' 48 8).toInt (w.extractLsb' 40 8).toInt (w.extractLsb' 32 8).toInt (w.extractLsb' 0 24))) ∧
  ∀ (x0 y0 r : Int) (c : Color) (s : State), ∃ t, exec (.fillCircle x0 y0 r c) s = .next t ∧
    ShapeEffect (fun u v => 0 ≤ r ∧ (u - x0) * (u - x0) + (v - y0) * (v - y0) ≤ r * r) c s t

/-- R148 (the spec's inference from R140 and R10): the order in which a cell set is plotted, and a cell plotted twice, make no
difference to what any cell holds. -/
def Obligations.PlottingOrderDoesNotMatter : Prop :=
  ∀ (cells₁ cells₂ : List Coord) (c : Color) (s : State), (∀ p, p ∈ cells₁ ↔ p ∈ cells₂) →
    ∀ a : Nat, (s.plotAll cells₁ c).readCell a = (s.plotAll cells₂ c).readCell a

/-- From R145 (decision D28, log entry 9): the loop of DRAWCIRCLE ends, after at most P + 1 passes. The machine's loop gives the same cells
with every bound on its passes from P + 1 up; the loop as a relation comes to a test that fails, with y, which counts the passes,
at most P + 1 (for P < 0 at the first test, decision D29); and while the test holds, y is at most P. -/
def Obligations.CircleLoopEnds : Prop :=
  ∀ x0 y0 r : Int,
    (∀ n : Nat, (r + 1).toNat ≤ n → circleLoop x0 y0 n r 0 (3 - 2 * r) = circleCells x0 y0 r) ∧
    (∃ x y d, CircleVisits r x y d ∧ x < y ∧ y ≤ max (r + 1) 0) ∧
    (∀ x y d, CircleVisits r x y d → x ≥ y → 0 ≤ y ∧ y ≤ r ∧ x ≤ r)

/-- R149 (the spec's inference): with operands that their fields can spell, every coordinate of a shape lies in [−255, 254],
the decision value of DRAWCIRCLE in [−433, 343], and every sum dx² + dy² of FILLCIRCLE's scan is at most 32258, so 16 bits are
enough. What is said of DRAWCIRCLE rests on its step order, decision D28 (log entry 9, PRESUMED). -/
def Obligations.ShapeArithmeticFitsDatapath : Prop :=
  (∀ x y p q : Int, FitsByte x → FitsByte y → FitsByte p → FitsByte q →
    ∀ c : Coord, c ∈ hLineCells x y p ++ vLineCells x y p ++ rectCells x y p q ++ fillRectCells x y p q ++
      circleCells x y p ++ discCells x y p →
      (-255 ≤ c.1 ∧ c.1 ≤ 254) ∧ (-255 ≤ c.2 ∧ c.2 ≤ 254)) ∧
  (∀ r x y d : Int, FitsByte r → CircleVisits r x y d → -433 ≤ d ∧ d ≤ 343) ∧
  (∀ r dx dy : Int, FitsByte r → dx ∈ symmetricRun r → dy ∈ symmetricRun r → dx * dx + dy * dy ≤ 32258)

/-! ## Colours and channels -/

/-- R172 (the spec's inference from R170 and R171): packing and unpacking a colour are inverse to each other. And which bits a
component is (R171 with R183's numbers): component 0, red, is bits 23 to 16, component 1, green, bits 15 to 8, component 2,
blue, bits 7 to 0. -/
def Obligations.PackUnpackRoundTrip : Prop :=
  (∀ c : Color, colorComponent c 0 = c.extractLsb' 16 8 ∧ colorComponent c 1 = c.extractLsb' 8 8 ∧
    colorComponent c 2 = c.extractLsb' 0 8 ∧ unpackColor c = (colorComponent c 0, colorComponent c 1, colorComponent c 2)) ∧
  (∀ r g b : Byte, unpackColor (packColor r g b) = (r, g, b)) ∧
  (∀ c : Color, packColor (unpackColor c).1 (unpackColor c).2.1 (unpackColor c).2.2 = c)

/-- R170: a packed colour is the number `(r << 16) | (g << 8) | b`, that is 65536·r + 256·g + b. -/
def Obligations.PackColorValue : Prop :=
  ∀ r g b : Byte, (packColor r g b).toNat = 65536 * r.toNat + 256 * g.toNat + b.toNat

/-- R173: each component of a blend is `(a * (255 - t) + b * t) div 255` of the same component of its colours. -/
def Obligations.BlendIsPerComponent : Prop :=
  ∀ (c1 c2 : Color) (t : Byte) (k : Component),
    (colorComponent (blendColor c1 c2 t) k).toNat =
      ((colorComponent c1 k).toNat * (255 - t.toNat) + (colorComponent c2 k).toNat * t.toNat) / 255

/-- R174 (a) to (d) (the spec's inference from R173): the end points, blending a colour with itself, and the reversed blend. -/
def Obligations.BlendProperties : Prop :=
  ∀ (c1 c2 : Color) (t : Byte), blendColor c1 c2 0#8 = c1 ∧ blendColor c1 c2 255#8 = c2 ∧ blendColor c1 c1 t = c1 ∧
    blendColor c2 c1 (255#8 - t) = blendColor c1 c2 t

/-- R183 (decision D14): channel ids follow the row-major order with the components R, G, B, and the inverse is
y = i div 24, x = (i mod 24) div 3, k = i mod 3. -/
def Obligations.ChannelNumbering : Prop :=
  (∀ (x y : Fin 8) (k : Component), (channelId x y k).val = 3 * (8 * y.val + x.val) + k.val) ∧
  (∀ i : ChannelId, (channelRow i).val = i.val / 24 ∧ (channelColumn i).val = i.val % 24 / 3 ∧
    (channelComponent i).val = i.val % 3 ∧ channelId (channelColumn i) (channelRow i) (channelComponent i) = i)

/-- From R185 and R186: after BEGIN the physical duty cycle of every channel is `DUTY_MAP` of the last frame's write to it at
the configured resolution, at every observation, so the outputs are a function of the last refresh alone. -/
def Obligations.OutputsShowLastFrame : Prop :=
  ∀ s : State, Inv s → s.begun = true → ∃ f, s.log.getLast? = some f ∧
    ∀ (w : ChannelWrite) (n : Nat), w ∈ f.writes → s.physicalDuty n w.1 = Config.dutyMap w.2 Config.pwmResolution

/-! ## Whole-machine rules -/

/-- From R23, R24 and R189 (decision D33): only BEGIN writes the configuration, and no command clears it. -/
def Obligations.OnlyBeginConfigures : Prop :=
  ∀ (i : Instr) (s t : State), exec i s = .next t →
    (i ≠ .begin → t.pinsCfg = s.pinsCfg ∧ t.pwmCfg = s.pwmCfg ∧ t.pwmFreq = s.pwmFreq ∧ t.pwmRes = s.pwmRes) ∧
    (s.begun = true → t.begun = true)

/-- From R222 (a) and R25: what a command does to FB, BRIGHT and RESP, and the writes of the frame it records, depend on FB
and BRIGHT alone: not on BEGIN having run, nor on the channels or the trace. -/
def Obligations.EffectsIgnoreConfiguration : Prop :=
  ∀ (i : Instr) (s₁ s₂ : State), s₁.fb = s₂.fb → s₁.bright = s₂.bright →
    ∃ t₁ t₂ fs₁ fs₂, exec i s₁ = .next t₁ ∧ exec i s₂ = .next t₂ ∧ t₁.fb = t₂.fb ∧ t₁.bright = t₂.bright ∧ t₁.resp = t₂.resp ∧
      t₁.log = s₁.log ++ fs₁ ∧ t₂.log = s₂.log ++ fs₂ ∧ fs₁.map Frame.writes = fs₂.map Frame.writes

/-- From R202 (decisions D6, D7): the refusal mark is never cleared, and it is set by refused words alone: after a nonempty
sequence of words it is clear exactly when it was clear before and every word that ran, the one still on the port before the
sequence included, decodes to a command. That the stream goes on after a refused word, and that the host waits for the word on
the port, are the model's own choices (log entries 5, 12). -/
def Obligations.RefusalMarkTellsRefusedWords : Prop :=
  ∀ (s : State) (w : CmdWord) (ws : List CmdWord),
    (afterStream s (w :: ws)).refusalMark = false ↔
      s.refusalMark = false ∧ (∀ v, s.pending = some v → ∃ i, decode v = .ok i) ∧ ∀ v ∈ w :: ws, ∃ i, decode v = .ok i

/-! ## The assembler -/

/-- From R69 (decision D36): the assembler never truncates. Whatever it accepts is well-formed; a command's written form
(mnemonic and operands in R69's order) is assembled to that very command when its operands fit their fields, and refused when
one does not; so is a brightness outside 0..255, which no command of the model can hold. -/
def Obligations.AssembledCommandsAreWellFormed : Prop :=
  (∀ (m : String) (ops : List AsmOperand) (is : List Instr), assemble m ops = some is → ∀ i ∈ is, WellFormed i) ∧
  (∀ i : Instr, (WellFormed i → assemble (writtenForm i).1 (writtenForm i).2 = some [i]) ∧
    (¬ WellFormed i → assemble (writtenForm i).1 (writtenForm i).2 = none)) ∧
  (∀ v : Int, (v < 0 ∨ 255 < v) → assemble "SETBRIGHT" [.int v] = none)

/-- From R72 and R175 (decisions D36, D38): the three pseudo-commands expand to the real commands they stand for, and a channel
outside 0..255 is refused, never masked or clamped (that this refusal leaves the refusal mark alone is log entry 16). -/
def Obligations.PseudoCommandsExpand : Prop :=
  (∀ (x y : Int) (r g b : Byte), FitsByte x → FitsByte y →
    assemble "SETPIXELRGB" [.int x, .int y, .int r.toNat, .int g.toNat, .int b.toNat] = some [.setPixel x y (packColor r g b)]) ∧
  (∀ r g b : Byte, assemble "FILLCOLORRGB" [.int r.toNat, .int g.toNat, .int b.toNat] = some [.fillColor (packColor r g b)]) ∧
  (∀ v : Byte, assemble "SHOWBRIGHT" [.int v.toNat] = some [.setBright v, .update]) ∧
  (∀ x y r g b : Int, (r < 0 ∨ 255 < r ∨ g < 0 ∨ 255 < g ∨ b < 0 ∨ 255 < b) →
    assemble "SETPIXELRGB" [.int x, .int y, .int r, .int g, .int b] = none ∧
    assemble "FILLCOLORRGB" [.int r, .int g, .int b] = none)
end

