-- ==== Sys2Proof/Laws/State.lean ====
section
/-! SUPPORT. One lemma for each field of State under each operation, so that no later proof unfolds an update. `begun` and
`readCell` read fields, and are treated as two more.
The lemmas of the simple updates are true by rfl; the proof is written (rfl), so that simp rewrites with them instead of asking
the kernel whether two states are the same by computation (which would evaluate a whole refresh). For the same reason the
composite operations' lemmas are proved by rewriting. -/

-- Declarations are checked one at a time: many at once, each on a thread with a stack of its own, exhaust the address space.
set_option Elab.async false

namespace Sys2Proof.Machine

/-! ## plot -/

@[simp] theorem State.plot_fb (s : State) (x y : Int) (c : Color) : (s.plot x y c).fb = s.fb.plot x y c := (rfl)
@[simp] theorem State.plot_bright (s : State) (x y : Int) (c : Color) : (s.plot x y c).bright = s.bright := (rfl)
@[simp] theorem State.plot_ch (s : State) (x y : Int) (c : Color) : (s.plot x y c).ch = s.ch := (rfl)
@[simp] theorem State.plot_pinsCfg (s : State) (x y : Int) (c : Color) : (s.plot x y c).pinsCfg = s.pinsCfg := (rfl)
@[simp] theorem State.plot_pwmCfg (s : State) (x y : Int) (c : Color) : (s.plot x y c).pwmCfg = s.pwmCfg := (rfl)
@[simp] theorem State.plot_pwmFreq (s : State) (x y : Int) (c : Color) : (s.plot x y c).pwmFreq = s.pwmFreq := (rfl)
@[simp] theorem State.plot_pwmRes (s : State) (x y : Int) (c : Color) : (s.plot x y c).pwmRes = s.pwmRes := (rfl)
@[simp] theorem State.plot_resp (s : State) (x y : Int) (c : Color) : (s.plot x y c).resp = s.resp := (rfl)
@[simp] theorem State.plot_log (s : State) (x y : Int) (c : Color) : (s.plot x y c).log = s.log := (rfl)
@[simp] theorem State.plot_refusalMark (s : State) (x y : Int) (c : Color) : (s.plot x y c).refusalMark = s.refusalMark := (rfl)
@[simp] theorem State.plot_pending (s : State) (x y : Int) (c : Color) : (s.plot x y c).pending = s.pending := (rfl)
@[simp] theorem State.plot_begun (s : State) (x y : Int) (c : Color) : (s.plot x y c).begun = s.begun := (rfl)
@[simp] theorem State.plot_readCell (s : State) (x y : Int) (c : Color) (k : Nat) : (s.plot x y c).readCell k = Memory.read (s.fb.plot x y c) k := (rfl)

/-! ## plotAll -/

@[simp] theorem State.plotAll_fb (s : State) (cells : List Coord) (c : Color) : (s.plotAll cells c).fb = s.fb.plotAll cells c := (rfl)
@[simp] theorem State.plotAll_bright (s : State) (cells : List Coord) (c : Color) : (s.plotAll cells c).bright = s.bright := (rfl)
@[simp] theorem State.plotAll_ch (s : State) (cells : List Coord) (c : Color) : (s.plotAll cells c).ch = s.ch := (rfl)
@[simp] theorem State.plotAll_pinsCfg (s : State) (cells : List Coord) (c : Color) : (s.plotAll cells c).pinsCfg = s.pinsCfg := (rfl)
@[simp] theorem State.plotAll_pwmCfg (s : State) (cells : List Coord) (c : Color) : (s.plotAll cells c).pwmCfg = s.pwmCfg := (rfl)
@[simp] theorem State.plotAll_pwmFreq (s : State) (cells : List Coord) (c : Color) : (s.plotAll cells c).pwmFreq = s.pwmFreq := (rfl)
@[simp] theorem State.plotAll_pwmRes (s : State) (cells : List Coord) (c : Color) : (s.plotAll cells c).pwmRes = s.pwmRes := (rfl)
@[simp] theorem State.plotAll_resp (s : State) (cells : List Coord) (c : Color) : (s.plotAll cells c).resp = s.resp := (rfl)
@[simp] theorem State.plotAll_log (s : State) (cells : List Coord) (c : Color) : (s.plotAll cells c).log = s.log := (rfl)
@[simp] theorem State.plotAll_refusalMark (s : State) (cells : List Coord) (c : Color) : (s.plotAll cells c).refusalMark = s.refusalMark := (rfl)
@[simp] theorem State.plotAll_pending (s : State) (cells : List Coord) (c : Color) : (s.plotAll cells c).pending = s.pending := (rfl)
@[simp] theorem State.plotAll_begun (s : State) (cells : List Coord) (c : Color) : (s.plotAll cells c).begun = s.begun := (rfl)
@[simp] theorem State.plotAll_readCell (s : State) (cells : List Coord) (c : Color) (k : Nat) : (s.plotAll cells c).readCell k = Memory.read (s.fb.plotAll cells c) k := (rfl)

/-! ## fillCells -/

@[simp] theorem State.fillCells_fb (s : State) (c : Color) : (s.fillCells c).fb = s.fb.fill c := (rfl)
@[simp] theorem State.fillCells_bright (s : State) (c : Color) : (s.fillCells c).bright = s.bright := (rfl)
@[simp] theorem State.fillCells_ch (s : State) (c : Color) : (s.fillCells c).ch = s.ch := (rfl)
@[simp] theorem State.fillCells_pinsCfg (s : State) (c : Color) : (s.fillCells c).pinsCfg = s.pinsCfg := (rfl)
@[simp] theorem State.fillCells_pwmCfg (s : State) (c : Color) : (s.fillCells c).pwmCfg = s.pwmCfg := (rfl)
@[simp] theorem State.fillCells_pwmFreq (s : State) (c : Color) : (s.fillCells c).pwmFreq = s.pwmFreq := (rfl)
@[simp] theorem State.fillCells_pwmRes (s : State) (c : Color) : (s.fillCells c).pwmRes = s.pwmRes := (rfl)
@[simp] theorem State.fillCells_resp (s : State) (c : Color) : (s.fillCells c).resp = s.resp := (rfl)
@[simp] theorem State.fillCells_log (s : State) (c : Color) : (s.fillCells c).log = s.log := (rfl)
@[simp] theorem State.fillCells_refusalMark (s : State) (c : Color) : (s.fillCells c).refusalMark = s.refusalMark := (rfl)
@[simp] theorem State.fillCells_pending (s : State) (c : Color) : (s.fillCells c).pending = s.pending := (rfl)
@[simp] theorem State.fillCells_begun (s : State) (c : Color) : (s.fillCells c).begun = s.begun := (rfl)
@[simp] theorem State.fillCells_readCell (s : State) (c : Color) (k : Nat) : (s.fillCells c).readCell k = Memory.read (s.fb.fill c) k := (rfl)

/-! ## setBrightness -/

@[simp] theorem State.setBrightness_fb (s : State) (v : Byte) : (s.setBrightness v).fb = s.fb := (rfl)
@[simp] theorem State.setBrightness_bright (s : State) (v : Byte) : (s.setBrightness v).bright = v := (rfl)
@[simp] theorem State.setBrightness_ch (s : State) (v : Byte) : (s.setBrightness v).ch = s.ch := (rfl)
@[simp] theorem State.setBrightness_pinsCfg (s : State) (v : Byte) : (s.setBrightness v).pinsCfg = s.pinsCfg := (rfl)
@[simp] theorem State.setBrightness_pwmCfg (s : State) (v : Byte) : (s.setBrightness v).pwmCfg = s.pwmCfg := (rfl)
@[simp] theorem State.setBrightness_pwmFreq (s : State) (v : Byte) : (s.setBrightness v).pwmFreq = s.pwmFreq := (rfl)
@[simp] theorem State.setBrightness_pwmRes (s : State) (v : Byte) : (s.setBrightness v).pwmRes = s.pwmRes := (rfl)
@[simp] theorem State.setBrightness_resp (s : State) (v : Byte) : (s.setBrightness v).resp = s.resp := (rfl)
@[simp] theorem State.setBrightness_log (s : State) (v : Byte) : (s.setBrightness v).log = s.log := (rfl)
@[simp] theorem State.setBrightness_refusalMark (s : State) (v : Byte) : (s.setBrightness v).refusalMark = s.refusalMark := (rfl)
@[simp] theorem State.setBrightness_pending (s : State) (v : Byte) : (s.setBrightness v).pending = s.pending := (rfl)
@[simp] theorem State.setBrightness_begun (s : State) (v : Byte) : (s.setBrightness v).begun = s.begun := (rfl)
@[simp] theorem State.setBrightness_readCell (s : State) (v : Byte) (k : Nat) : (s.setBrightness v).readCell k = s.readCell k := (rfl)

/-! ## respond -/

@[simp] theorem State.respond_fb (s : State) (v : RespWord) : (s.respond v).fb = s.fb := (rfl)
@[simp] theorem State.respond_bright (s : State) (v : RespWord) : (s.respond v).bright = s.bright := (rfl)
@[simp] theorem State.respond_ch (s : State) (v : RespWord) : (s.respond v).ch = s.ch := (rfl)
@[simp] theorem State.respond_pinsCfg (s : State) (v : RespWord) : (s.respond v).pinsCfg = s.pinsCfg := (rfl)
@[simp] theorem State.respond_pwmCfg (s : State) (v : RespWord) : (s.respond v).pwmCfg = s.pwmCfg := (rfl)
@[simp] theorem State.respond_pwmFreq (s : State) (v : RespWord) : (s.respond v).pwmFreq = s.pwmFreq := (rfl)
@[simp] theorem State.respond_pwmRes (s : State) (v : RespWord) : (s.respond v).pwmRes = s.pwmRes := (rfl)
@[simp] theorem State.respond_resp (s : State) (v : RespWord) : (s.respond v).resp = some v := (rfl)
@[simp] theorem State.respond_log (s : State) (v : RespWord) : (s.respond v).log = s.log := (rfl)
@[simp] theorem State.respond_refusalMark (s : State) (v : RespWord) : (s.respond v).refusalMark = s.refusalMark := (rfl)
@[simp] theorem State.respond_pending (s : State) (v : RespWord) : (s.respond v).pending = s.pending := (rfl)
@[simp] theorem State.respond_begun (s : State) (v : RespWord) : (s.respond v).begun = s.begun := (rfl)
@[simp] theorem State.respond_readCell (s : State) (v : RespWord) (k : Nat) : (s.respond v).readCell k = s.readCell k := (rfl)

/-! ## configurePins -/

@[simp] theorem State.configurePins_fb (s : State) : s.configurePins.fb = s.fb := (rfl)
@[simp] theorem State.configurePins_bright (s : State) : s.configurePins.bright = s.bright := (rfl)
@[simp] theorem State.configurePins_ch (s : State) : s.configurePins.ch = s.ch := (rfl)
@[simp] theorem State.configurePins_pinsCfg (s : State) : s.configurePins.pinsCfg = true := (rfl)
@[simp] theorem State.configurePins_pwmCfg (s : State) : s.configurePins.pwmCfg = s.pwmCfg := (rfl)
@[simp] theorem State.configurePins_pwmFreq (s : State) : s.configurePins.pwmFreq = s.pwmFreq := (rfl)
@[simp] theorem State.configurePins_pwmRes (s : State) : s.configurePins.pwmRes = s.pwmRes := (rfl)
@[simp] theorem State.configurePins_resp (s : State) : s.configurePins.resp = s.resp := (rfl)
@[simp] theorem State.configurePins_log (s : State) : s.configurePins.log = s.log := (rfl)
@[simp] theorem State.configurePins_refusalMark (s : State) : s.configurePins.refusalMark = s.refusalMark := (rfl)
@[simp] theorem State.configurePins_pending (s : State) : s.configurePins.pending = s.pending := (rfl)
@[simp] theorem State.configurePins_readCell (s : State) (k : Nat) : s.configurePins.readCell k = s.readCell k := (rfl)

/-! ## configurePwm -/

@[simp] theorem State.configurePwm_fb (s : State) (f r : Nat) : (s.configurePwm f r).fb = s.fb := (rfl)
@[simp] theorem State.configurePwm_bright (s : State) (f r : Nat) : (s.configurePwm f r).bright = s.bright := (rfl)
@[simp] theorem State.configurePwm_ch (s : State) (f r : Nat) : (s.configurePwm f r).ch = Vector.replicate 192 none := (rfl)
@[simp] theorem State.configurePwm_pinsCfg (s : State) (f r : Nat) : (s.configurePwm f r).pinsCfg = s.pinsCfg := (rfl)
@[simp] theorem State.configurePwm_pwmCfg (s : State) (f r : Nat) : (s.configurePwm f r).pwmCfg = true := (rfl)
@[simp] theorem State.configurePwm_pwmFreq (s : State) (f r : Nat) : (s.configurePwm f r).pwmFreq = some f := (rfl)
@[simp] theorem State.configurePwm_pwmRes (s : State) (f r : Nat) : (s.configurePwm f r).pwmRes = some r := (rfl)
@[simp] theorem State.configurePwm_resp (s : State) (f r : Nat) : (s.configurePwm f r).resp = s.resp := (rfl)
@[simp] theorem State.configurePwm_log (s : State) (f r : Nat) : (s.configurePwm f r).log = s.log := (rfl)
@[simp] theorem State.configurePwm_refusalMark (s : State) (f r : Nat) : (s.configurePwm f r).refusalMark = s.refusalMark := (rfl)
@[simp] theorem State.configurePwm_pending (s : State) (f r : Nat) : (s.configurePwm f r).pending = s.pending := (rfl)
@[simp] theorem State.configurePwm_readCell (s : State) (f r : Nat) (k : Nat) : (s.configurePwm f r).readCell k = s.readCell k := (rfl)

/-! ## emit -/

@[simp] theorem State.emit_fb (s : State) (w : ChannelWrite) : (s.emit w).fb = s.fb := (rfl)
@[simp] theorem State.emit_bright (s : State) (w : ChannelWrite) : (s.emit w).bright = s.bright := (rfl)
@[simp] theorem State.emit_ch (s : State) (w : ChannelWrite) : (s.emit w).ch = emitChannel s.begun s.ch w := (rfl)
@[simp] theorem State.emit_pinsCfg (s : State) (w : ChannelWrite) : (s.emit w).pinsCfg = s.pinsCfg := (rfl)
@[simp] theorem State.emit_pwmCfg (s : State) (w : ChannelWrite) : (s.emit w).pwmCfg = s.pwmCfg := (rfl)
@[simp] theorem State.emit_pwmFreq (s : State) (w : ChannelWrite) : (s.emit w).pwmFreq = s.pwmFreq := (rfl)
@[simp] theorem State.emit_pwmRes (s : State) (w : ChannelWrite) : (s.emit w).pwmRes = s.pwmRes := (rfl)
@[simp] theorem State.emit_resp (s : State) (w : ChannelWrite) : (s.emit w).resp = s.resp := (rfl)
@[simp] theorem State.emit_log (s : State) (w : ChannelWrite) : (s.emit w).log = s.log := (rfl)
@[simp] theorem State.emit_refusalMark (s : State) (w : ChannelWrite) : (s.emit w).refusalMark = s.refusalMark := (rfl)
@[simp] theorem State.emit_pending (s : State) (w : ChannelWrite) : (s.emit w).pending = s.pending := (rfl)
@[simp] theorem State.emit_begun (s : State) (w : ChannelWrite) : (s.emit w).begun = s.begun := (rfl)
@[simp] theorem State.emit_readCell (s : State) (w : ChannelWrite) (k : Nat) : (s.emit w).readCell k = s.readCell k := (rfl)

/-! ## emitAll -/

@[simp] theorem State.emitAll_fb (s : State) (ws : List ChannelWrite) : (s.emitAll ws).fb = s.fb := (rfl)
@[simp] theorem State.emitAll_bright (s : State) (ws : List ChannelWrite) : (s.emitAll ws).bright = s.bright := (rfl)
@[simp] theorem State.emitAll_ch (s : State) (ws : List ChannelWrite) : (s.emitAll ws).ch = ws.foldl (emitChannel s.begun) s.ch := (rfl)
@[simp] theorem State.emitAll_pinsCfg (s : State) (ws : List ChannelWrite) : (s.emitAll ws).pinsCfg = s.pinsCfg := (rfl)
@[simp] theorem State.emitAll_pwmCfg (s : State) (ws : List ChannelWrite) : (s.emitAll ws).pwmCfg = s.pwmCfg := (rfl)
@[simp] theorem State.emitAll_pwmFreq (s : State) (ws : List ChannelWrite) : (s.emitAll ws).pwmFreq = s.pwmFreq := (rfl)
@[simp] theorem State.emitAll_pwmRes (s : State) (ws : List ChannelWrite) : (s.emitAll ws).pwmRes = s.pwmRes := (rfl)
@[simp] theorem State.emitAll_resp (s : State) (ws : List ChannelWrite) : (s.emitAll ws).resp = s.resp := (rfl)
@[simp] theorem State.emitAll_log (s : State) (ws : List ChannelWrite) : (s.emitAll ws).log = s.log := (rfl)
@[simp] theorem State.emitAll_refusalMark (s : State) (ws : List ChannelWrite) : (s.emitAll ws).refusalMark = s.refusalMark := (rfl)
@[simp] theorem State.emitAll_pending (s : State) (ws : List ChannelWrite) : (s.emitAll ws).pending = s.pending := (rfl)
@[simp] theorem State.emitAll_begun (s : State) (ws : List ChannelWrite) : (s.emitAll ws).begun = s.begun := (rfl)
@[simp] theorem State.emitAll_readCell (s : State) (ws : List ChannelWrite) (k : Nat) : (s.emitAll ws).readCell k = s.readCell k := (rfl)

/-! ## record -/

@[simp] theorem State.record_fb (s : State) (f : Frame) : (s.record f).fb = s.fb := (rfl)
@[simp] theorem State.record_bright (s : State) (f : Frame) : (s.record f).bright = s.bright := (rfl)
@[simp] theorem State.record_ch (s : State) (f : Frame) : (s.record f).ch = s.ch := (rfl)
@[simp] theorem State.record_pinsCfg (s : State) (f : Frame) : (s.record f).pinsCfg = s.pinsCfg := (rfl)
@[simp] theorem State.record_pwmCfg (s : State) (f : Frame) : (s.record f).pwmCfg = s.pwmCfg := (rfl)
@[simp] theorem State.record_pwmFreq (s : State) (f : Frame) : (s.record f).pwmFreq = s.pwmFreq := (rfl)
@[simp] theorem State.record_pwmRes (s : State) (f : Frame) : (s.record f).pwmRes = s.pwmRes := (rfl)
@[simp] theorem State.record_resp (s : State) (f : Frame) : (s.record f).resp = s.resp := (rfl)
@[simp] theorem State.record_log (s : State) (f : Frame) : (s.record f).log = s.log ++ [f] := (rfl)
@[simp] theorem State.record_refusalMark (s : State) (f : Frame) : (s.record f).refusalMark = s.refusalMark := (rfl)
@[simp] theorem State.record_pending (s : State) (f : Frame) : (s.record f).pending = s.pending := (rfl)
@[simp] theorem State.record_begun (s : State) (f : Frame) : (s.record f).begun = s.begun := (rfl)
@[simp] theorem State.record_readCell (s : State) (f : Frame) (k : Nat) : (s.record f).readCell k = s.readCell k := (rfl)

/-! ## takeCommand -/

@[simp] theorem State.takeCommand_fb (s : State) : s.takeCommand.fb = s.fb := (rfl)
@[simp] theorem State.takeCommand_bright (s : State) : s.takeCommand.bright = s.bright := (rfl)
@[simp] theorem State.takeCommand_ch (s : State) : s.takeCommand.ch = s.ch := (rfl)
@[simp] theorem State.takeCommand_pinsCfg (s : State) : s.takeCommand.pinsCfg = s.pinsCfg := (rfl)
@[simp] theorem State.takeCommand_pwmCfg (s : State) : s.takeCommand.pwmCfg = s.pwmCfg := (rfl)
@[simp] theorem State.takeCommand_pwmFreq (s : State) : s.takeCommand.pwmFreq = s.pwmFreq := (rfl)
@[simp] theorem State.takeCommand_pwmRes (s : State) : s.takeCommand.pwmRes = s.pwmRes := (rfl)
@[simp] theorem State.takeCommand_resp (s : State) : s.takeCommand.resp = s.resp := (rfl)
@[simp] theorem State.takeCommand_log (s : State) : s.takeCommand.log = s.log := (rfl)
@[simp] theorem State.takeCommand_refusalMark (s : State) : s.takeCommand.refusalMark = s.refusalMark := (rfl)
@[simp] theorem State.takeCommand_pending (s : State) : s.takeCommand.pending = none := (rfl)
@[simp] theorem State.takeCommand_begun (s : State) : s.takeCommand.begun = s.begun := (rfl)
@[simp] theorem State.takeCommand_readCell (s : State) (k : Nat) : s.takeCommand.readCell k = s.readCell k := (rfl)

/-! ## refuse -/

@[simp] theorem State.refuse_fb (s : State) : s.refuse.fb = s.fb := (rfl)
@[simp] theorem State.refuse_bright (s : State) : s.refuse.bright = s.bright := (rfl)
@[simp] theorem State.refuse_ch (s : State) : s.refuse.ch = s.ch := (rfl)
@[simp] theorem State.refuse_pinsCfg (s : State) : s.refuse.pinsCfg = s.pinsCfg := (rfl)
@[simp] theorem State.refuse_pwmCfg (s : State) : s.refuse.pwmCfg = s.pwmCfg := (rfl)
@[simp] theorem State.refuse_pwmFreq (s : State) : s.refuse.pwmFreq = s.pwmFreq := (rfl)
@[simp] theorem State.refuse_pwmRes (s : State) : s.refuse.pwmRes = s.pwmRes := (rfl)
@[simp] theorem State.refuse_resp (s : State) : s.refuse.resp = s.resp := (rfl)
@[simp] theorem State.refuse_log (s : State) : s.refuse.log = s.log := (rfl)
@[simp] theorem State.refuse_refusalMark (s : State) : s.refuse.refusalMark = true := (rfl)
@[simp] theorem State.refuse_pending (s : State) : s.refuse.pending = none := (rfl)
@[simp] theorem State.refuse_begun (s : State) : s.refuse.begun = s.begun := (rfl)
@[simp] theorem State.refuse_readCell (s : State) (k : Nat) : s.refuse.readCell k = s.readCell k := (rfl)

/-! ## withCommand -/

@[simp] theorem State.withCommand_fb (s : State) (w : CmdWord) : (s.withCommand w).fb = s.fb := (rfl)
@[simp] theorem State.withCommand_bright (s : State) (w : CmdWord) : (s.withCommand w).bright = s.bright := (rfl)
@[simp] theorem State.withCommand_ch (s : State) (w : CmdWord) : (s.withCommand w).ch = s.ch := (rfl)
@[simp] theorem State.withCommand_pinsCfg (s : State) (w : CmdWord) : (s.withCommand w).pinsCfg = s.pinsCfg := (rfl)
@[simp] theorem State.withCommand_pwmCfg (s : State) (w : CmdWord) : (s.withCommand w).pwmCfg = s.pwmCfg := (rfl)
@[simp] theorem State.withCommand_pwmFreq (s : State) (w : CmdWord) : (s.withCommand w).pwmFreq = s.pwmFreq := (rfl)
@[simp] theorem State.withCommand_pwmRes (s : State) (w : CmdWord) : (s.withCommand w).pwmRes = s.pwmRes := (rfl)
@[simp] theorem State.withCommand_resp (s : State) (w : CmdWord) : (s.withCommand w).resp = s.resp := (rfl)
@[simp] theorem State.withCommand_log (s : State) (w : CmdWord) : (s.withCommand w).log = s.log := (rfl)
@[simp] theorem State.withCommand_refusalMark (s : State) (w : CmdWord) : (s.withCommand w).refusalMark = s.refusalMark := (rfl)
@[simp] theorem State.withCommand_pending (s : State) (w : CmdWord) : (s.withCommand w).pending = some w := (rfl)
@[simp] theorem State.withCommand_begun (s : State) (w : CmdWord) : (s.withCommand w).begun = s.begun := (rfl)
@[simp] theorem State.withCommand_readCell (s : State) (w : CmdWord) (k : Nat) : (s.withCommand w).readCell k = s.readCell k := (rfl)

/-! ## refresh -/

@[simp] theorem State.refresh_fb (s : State) :
    s.refresh.fb = s.fb := by
  simp only [State.refresh, State.record_fb, State.emitAll_fb]
@[simp] theorem State.refresh_bright (s : State) :
    s.refresh.bright = s.bright := by
  simp only [State.refresh, State.record_bright, State.emitAll_bright]
theorem State.refresh_ch (s : State) :
    s.refresh.ch = (rasterWrites s.fb s.bright).foldl (emitChannel s.begun) s.ch := by
  simp only [State.refresh, State.record_ch, State.emitAll_ch]
@[simp] theorem State.refresh_pinsCfg (s : State) :
    s.refresh.pinsCfg = s.pinsCfg := by
  simp only [State.refresh, State.record_pinsCfg, State.emitAll_pinsCfg]
@[simp] theorem State.refresh_pwmCfg (s : State) :
    s.refresh.pwmCfg = s.pwmCfg := by
  simp only [State.refresh, State.record_pwmCfg, State.emitAll_pwmCfg]
@[simp] theorem State.refresh_pwmFreq (s : State) :
    s.refresh.pwmFreq = s.pwmFreq := by
  simp only [State.refresh, State.record_pwmFreq, State.emitAll_pwmFreq]
@[simp] theorem State.refresh_pwmRes (s : State) :
    s.refresh.pwmRes = s.pwmRes := by
  simp only [State.refresh, State.record_pwmRes, State.emitAll_pwmRes]
@[simp] theorem State.refresh_resp (s : State) :
    s.refresh.resp = s.resp := by
  simp only [State.refresh, State.record_resp, State.emitAll_resp]
@[simp] theorem State.refresh_log (s : State) :
    s.refresh.log = s.log ++ [⟨s.begun, rasterWrites s.fb s.bright⟩] := by
  simp only [State.refresh, State.record_log, State.emitAll_log]
@[simp] theorem State.refresh_refusalMark (s : State) :
    s.refresh.refusalMark = s.refusalMark := by
  simp only [State.refresh, State.record_refusalMark, State.emitAll_refusalMark]
@[simp] theorem State.refresh_pending (s : State) :
    s.refresh.pending = s.pending := by
  simp only [State.refresh, State.record_pending, State.emitAll_pending]
@[simp] theorem State.refresh_begun (s : State) :
    s.refresh.begun = s.begun := by
  simp only [State.refresh, State.record_begun, State.emitAll_begun]
@[simp] theorem State.refresh_readCell (s : State) (k : Nat) :
    s.refresh.readCell k = s.readCell k := by
  simp only [State.readCell, State.refresh_fb]

/-! ## fillAll -/

@[simp] theorem State.fillAll_fb (s : State) (c : Color) :
    (s.fillAll c).fb = s.fb.fill c := by
  simp only [State.fillAll, State.refresh_fb, State.fillCells_fb]
@[simp] theorem State.fillAll_bright (s : State) (c : Color) :
    (s.fillAll c).bright = s.bright := by
  simp only [State.fillAll, State.refresh_bright, State.fillCells_bright]
@[simp] theorem State.fillAll_pinsCfg (s : State) (c : Color) :
    (s.fillAll c).pinsCfg = s.pinsCfg := by
  simp only [State.fillAll, State.refresh_pinsCfg, State.fillCells_pinsCfg]
@[simp] theorem State.fillAll_pwmCfg (s : State) (c : Color) :
    (s.fillAll c).pwmCfg = s.pwmCfg := by
  simp only [State.fillAll, State.refresh_pwmCfg, State.fillCells_pwmCfg]
@[simp] theorem State.fillAll_pwmFreq (s : State) (c : Color) :
    (s.fillAll c).pwmFreq = s.pwmFreq := by
  simp only [State.fillAll, State.refresh_pwmFreq, State.fillCells_pwmFreq]
@[simp] theorem State.fillAll_pwmRes (s : State) (c : Color) :
    (s.fillAll c).pwmRes = s.pwmRes := by
  simp only [State.fillAll, State.refresh_pwmRes, State.fillCells_pwmRes]
@[simp] theorem State.fillAll_resp (s : State) (c : Color) :
    (s.fillAll c).resp = s.resp := by
  simp only [State.fillAll, State.refresh_resp, State.fillCells_resp]
@[simp] theorem State.fillAll_log (s : State) (c : Color) :
    (s.fillAll c).log = s.log ++ [⟨s.begun, rasterWrites (s.fb.fill c) s.bright⟩] := by
  simp only [State.fillAll, State.refresh_log, State.fillCells_log, State.fillCells_fb, State.fillCells_bright, State.fillCells_begun]
@[simp] theorem State.fillAll_refusalMark (s : State) (c : Color) :
    (s.fillAll c).refusalMark = s.refusalMark := by
  simp only [State.fillAll, State.refresh_refusalMark, State.fillCells_refusalMark]
@[simp] theorem State.fillAll_pending (s : State) (c : Color) :
    (s.fillAll c).pending = s.pending := by
  simp only [State.fillAll, State.refresh_pending, State.fillCells_pending]
@[simp] theorem State.fillAll_begun (s : State) (c : Color) :
    (s.fillAll c).begun = s.begun := by
  simp only [State.fillAll, State.refresh_begun, State.fillCells_begun]
@[simp] theorem State.fillAll_readCell (s : State) (c : Color) (k : Nat) :
    (s.fillAll c).readCell k = Memory.read (s.fb.fill c) k := by
  simp only [State.readCell, State.fillAll_fb]

/-! ## shape -/

@[simp] theorem State.shape_fb (s : State) (cells : List Coord) (c : Color) :
    (s.shape cells c).fb = s.fb.plotAll cells c := by
  simp only [State.shape, State.refresh_fb, State.plotAll_fb]
@[simp] theorem State.shape_bright (s : State) (cells : List Coord) (c : Color) :
    (s.shape cells c).bright = s.bright := by
  simp only [State.shape, State.refresh_bright, State.plotAll_bright]
@[simp] theorem State.shape_pinsCfg (s : State) (cells : List Coord) (c : Color) :
    (s.shape cells c).pinsCfg = s.pinsCfg := by
  simp only [State.shape, State.refresh_pinsCfg, State.plotAll_pinsCfg]
@[simp] theorem State.shape_pwmCfg (s : State) (cells : List Coord) (c : Color) :
    (s.shape cells c).pwmCfg = s.pwmCfg := by
  simp only [State.shape, State.refresh_pwmCfg, State.plotAll_pwmCfg]
@[simp] theorem State.shape_pwmFreq (s : State) (cells : List Coord) (c : Color) :
    (s.shape cells c).pwmFreq = s.pwmFreq := by
  simp only [State.shape, State.refresh_pwmFreq, State.plotAll_pwmFreq]
@[simp] theorem State.shape_pwmRes (s : State) (cells : List Coord) (c : Color) :
    (s.shape cells c).pwmRes = s.pwmRes := by
  simp only [State.shape, State.refresh_pwmRes, State.plotAll_pwmRes]
@[simp] theorem State.shape_resp (s : State) (cells : List Coord) (c : Color) :
    (s.shape cells c).resp = s.resp := by
  simp only [State.shape, State.refresh_resp, State.plotAll_resp]
@[simp] theorem State.shape_log (s : State) (cells : List Coord) (c : Color) :
    (s.shape cells c).log = s.log ++ [⟨s.begun, rasterWrites (s.fb.plotAll cells c) s.bright⟩] := by
  simp only [State.shape, State.refresh_log, State.plotAll_log, State.plotAll_fb, State.plotAll_bright, State.plotAll_begun]
@[simp] theorem State.shape_refusalMark (s : State) (cells : List Coord) (c : Color) :
    (s.shape cells c).refusalMark = s.refusalMark := by
  simp only [State.shape, State.refresh_refusalMark, State.plotAll_refusalMark]
@[simp] theorem State.shape_pending (s : State) (cells : List Coord) (c : Color) :
    (s.shape cells c).pending = s.pending := by
  simp only [State.shape, State.refresh_pending, State.plotAll_pending]
@[simp] theorem State.shape_begun (s : State) (cells : List Coord) (c : Color) :
    (s.shape cells c).begun = s.begun := by
  simp only [State.shape, State.refresh_begun, State.plotAll_begun]
@[simp] theorem State.shape_readCell (s : State) (cells : List Coord) (c : Color) (k : Nat) :
    (s.shape cells c).readCell k = Memory.read (s.fb.plotAll cells c) k := by
  simp only [State.readCell, State.shape_fb]

@[simp] theorem State.withFetchWord_pending (s : State) (n w : Nat) :
    (s.withFetchWord n w).pending = some (tableWord n w) := (rfl)

end Sys2Proof.Machine
end

