-- ==== Sys2Proof/Laws/Memory.lean ====
section
/-! SUPPORT. The laws of the framebuffer: what one write does to every cell, and that it keeps the canonical form. -/

namespace Sys2Proof.Machine

/-! ## Reading after each part of a write -/

theorem Memory.read_eraseCell_same (m : Memory) (a : Nat) : (m.eraseCell a).read a = unlistedCell := by
  induction m with
  | nil => rfl
  | cons e rest ih =>
    by_cases h : e.1 = a
    · simpa [Memory.eraseCell, h] using ih
    · have h' : ¬ a = e.1 := fun k => h k.symm
      simpa [Memory.eraseCell, h, h', Memory.read] using ih

theorem Memory.read_eraseCell_other (m : Memory) {a b : Nat} (hab : b ≠ a) : (m.eraseCell a).read b = m.read b := by
  induction m with
  | nil => rfl
  | cons e rest ih =>
    by_cases h : e.1 = a
    · have hb : ¬ b = e.1 := fun k => hab (k.trans h)
      simpa [Memory.eraseCell, h, Memory.read, hab] using ih
    · by_cases hb : b = e.1
      · subst hb
        simp [Memory.eraseCell, h, Memory.read]
      · simpa [Memory.eraseCell, h, hb, Memory.read] using ih

/-- No listed cell has address `a`. -/
theorem Memory.not_mem_eraseCell (m : Memory) (a : Nat) : ∀ e ∈ m.eraseCell a, e.1 ≠ a := by
  simp [Memory.eraseCell]

theorem Memory.read_insertCell_same (m : Memory) (a : Nat) (c : Color) (h : ∀ e ∈ m, e.1 ≠ a) :
    (m.insertCell a c).read a = c := by
  induction m with
  | nil => simp [Memory.insertCell, Memory.read]
  | cons e rest ih =>
    have he : ¬ a = e.1 := fun k => h e (by simp) k.symm
    by_cases hlt : a < e.1
    · simp [Memory.insertCell, hlt, Memory.read]
    · simpa [Memory.insertCell, hlt, he, Memory.read] using ih (fun x hx => h x (by simp [hx]))

theorem Memory.read_insertCell_other (m : Memory) {a b : Nat} (c : Color) (hab : b ≠ a) :
    (m.insertCell a c).read b = m.read b := by
  induction m with
  | nil => simp [Memory.insertCell, Memory.read, hab]
  | cons e rest ih =>
    by_cases hlt : a < e.1
    · simp [Memory.insertCell, hlt, Memory.read, hab]
    · by_cases hb : b = e.1
      · simp [Memory.insertCell, hlt, Memory.read, hb]
      · simpa [Memory.insertCell, hlt, Memory.read, hb] using ih

/-! ## Reading after a write -/

/-- A write reads back (R9, R40). -/
theorem Memory.read_write_self (m : Memory) (a : Nat) (c : Color) : (m.write a c).read a = c := by
  unfold Memory.write
  split
  · next h => rw [Memory.read_eraseCell_same, h]
  · exact Memory.read_insertCell_same _ _ _ (Memory.not_mem_eraseCell m a)

/-- A write leaves every other cell alone. -/
theorem Memory.read_write_ne (m : Memory) {a b : Nat} (c : Color) (hab : b ≠ a) : (m.write a c).read b = m.read b := by
  unfold Memory.write
  split
  · exact Memory.read_eraseCell_other m hab
  · rw [Memory.read_insertCell_other _ c hab, Memory.read_eraseCell_other m hab]

/-- Both laws at once. -/
theorem Memory.read_write (m : Memory) (a b : Nat) (c : Color) : (m.write a c).read b = if b = a then c else m.read b := by
  split
  · next h => subst h; exact Memory.read_write_self _ _ _
  · next h => exact Memory.read_write_ne _ _ h

/-! ## The canonical form -/

/-- The canonical form in terms of the list's elements. -/
theorem Memory.wf_iff (m : Memory) :
    m.wf = true ↔ m.Pairwise (fun e f => e.1 < f.1) ∧ (∀ e ∈ m, e.1 < 64 ∧ e.2 ≠ unlistedCell) := by
  induction m with
  | nil => simp [Memory.wf]
  | cons e rest ih =>
    cases rest with
    | nil => simp [Memory.wf]
    | cons f rest =>
      simp only [Memory.wf, Bool.and_eq_true, decide_eq_true_eq, ih, List.pairwise_cons, List.forall_mem_cons]
      constructor
      · rintro ⟨⟨h1, h2⟩, ⟨h3, h4⟩, ⟨h5, h6⟩, h7⟩
        exact ⟨⟨⟨h1, fun x hx => h1.trans (h3 x hx)⟩, h3, h4⟩, ⟨h1.trans h5, h2⟩, ⟨h5, h6⟩, h7⟩
      · rintro ⟨⟨⟨h1, -⟩, h3, h4⟩, ⟨-, h2⟩, ⟨h5, h6⟩, h7⟩
        exact ⟨⟨h1, h2⟩, ⟨h3, h4⟩, ⟨h5, h6⟩, h7⟩

theorem Memory.mem_insertCell (m : Memory) (a : Nat) (c : Color) (e : Nat × Color) :
    e ∈ m.insertCell a c ↔ e = (a, c) ∨ e ∈ m := by
  induction m with
  | nil => simp [Memory.insertCell]
  | cons f rest ih =>
    by_cases h : a < f.1
    · simp [Memory.insertCell, h]
    · simp only [Memory.insertCell, h, if_false, List.mem_cons, ih]
      tauto

theorem Memory.pairwise_insertCell (m : Memory) (a : Nat) (c : Color) (hm : m.Pairwise (fun e f => e.1 < f.1))
    (ha : ∀ e ∈ m, e.1 ≠ a) : (m.insertCell a c).Pairwise (fun e f => e.1 < f.1) := by
  induction m with
  | nil => simp [Memory.insertCell]
  | cons f rest ih =>
    rw [List.pairwise_cons] at hm
    have hf : f.1 ≠ a := ha f (by simp)
    by_cases h : a < f.1
    · rw [Memory.insertCell, if_pos h, List.pairwise_cons, List.pairwise_cons, List.forall_mem_cons]
      exact ⟨⟨h, fun x hx => h.trans (hm.1 x hx)⟩, hm.1, hm.2⟩
    · simp only [Memory.insertCell, h, if_false, List.pairwise_cons]
      refine ⟨fun x hx => ?_, ih hm.2 (fun x hx => ha x (by simp [hx]))⟩
      rcases (Memory.mem_insertCell rest a c x).1 hx with rfl | hx
      · simp only; omega
      · exact hm.1 x hx

/-- The framebuffer at reset is in the canonical form. -/
theorem reset_fb_wf : State.reset.fb.wf = true := rfl

/-- A write to a cell keeps the canonical form. -/
theorem Memory.wf_write (m : Memory) (a : Nat) (c : Color) (ha : a < 64) (hm : m.wf = true) : (m.write a c).wf = true := by
  rw [Memory.wf_iff] at hm ⊢
  have he : (m.eraseCell a).Pairwise (fun e f => e.1 < f.1) := hm.1.filter _
  have hsub : ∀ e ∈ m.eraseCell a, e.1 < 64 ∧ e.2 ≠ unlistedCell := fun e h => hm.2 e (List.mem_filter.1 h).1
  unfold Memory.write
  split
  · exact ⟨he, hsub⟩
  · next hc =>
    refine ⟨Memory.pairwise_insertCell _ a c he (Memory.not_mem_eraseCell m a), fun e h => ?_⟩
    rcases (Memory.mem_insertCell _ a c e).1 h with rfl | h
    · exact ⟨ha, hc⟩
    · exact hsub e h

end Sys2Proof.Machine
end

