-- ==== Sys2Proof/Laws/Cells.lean ====
section
/-! SUPPORT. The laws of the drawing operations: the cell of a coordinate, what plotting a cell set and filling the buffer do
to every cell, and the members of each shape's cell set. -/

namespace Sys2Proof.Machine

/-! ## Coordinates and cells (R10, R40) -/

theorem idx_lt {x y : Int} (h : InRange x y) : idx x y < 64 := by
  simp only [InRange, Config.gridWidth, Config.gridHeight] at h
  simp only [idx, Config.gridWidth]; omega

theorem idx_inj {x y u v : Int} (h : InRange x y) (h' : InRange u v) : idx x y = idx u v ↔ x = u ∧ y = v := by
  simp only [InRange, Config.gridWidth, Config.gridHeight] at h h'
  simp only [idx, Config.gridWidth]; omega

/-- Every cell is the cell of one in-range coordinate. -/
theorem idx_surj (a : Nat) (ha : a < 64) :
    InRange (a % 8 : Nat) (a / 8 : Nat) ∧ idx (a % 8 : Nat) (a / 8 : Nat) = a := by
  simp only [InRange, idx, Config.gridWidth, Config.gridHeight]; omega

/-! ## Plotting -/

/-- What one `Plot` does to every cell (R10). -/
theorem Memory.read_plot (m : Memory) (x y : Int) (c : Color) (a : Nat) :
    (m.plot x y c).read a = if InRange x y ∧ a = idx x y then c else m.read a := by
  unfold Memory.plot
  by_cases h : InRange x y
  · rw [if_pos h, Memory.read_write]
    exact if_congr (and_iff_right h).symm rfl rfl
  · rw [if_neg h, if_neg (fun k => h k.1)]

theorem Memory.wf_plot (m : Memory) (x y : Int) (c : Color) (h : m.wf = true) : (m.plot x y c).wf = true := by
  unfold Memory.plot
  split
  · next hr => exact Memory.wf_write _ _ _ (idx_lt hr) h
  · exact h

/-- What plotting a cell set does to a cell of one of its in-range members (R140, R148). -/
theorem Memory.read_plotAll_mem (cells : List Coord) (c : Color) (m : Memory) (a : Nat)
    (h : ∃ p ∈ cells, InRange p.1 p.2 ∧ a = idx p.1 p.2) : (m.plotAll cells c).read a = c := by
  unfold Memory.plotAll
  induction cells generalizing m with
  | nil => simp at h
  | cons p ps ih =>
    rw [List.foldl_cons]
    by_cases hps : ∃ q ∈ ps, InRange q.1 q.2 ∧ a = idx q.1 q.2
    · exact ih _ hps
    · have hp : InRange p.1 p.2 ∧ a = idx p.1 p.2 := by
        obtain ⟨q, hq, hh⟩ := h
        rcases List.mem_cons.1 hq with rfl | hq
        · exact hh
        · exact absurd ⟨q, hq, hh⟩ hps
      have hrest : ∀ (qs : List Coord) (n : Memory), (¬ ∃ q ∈ qs, InRange q.1 q.2 ∧ a = idx q.1 q.2) →
          (qs.foldl (fun n p => n.plot p.1 p.2 c) n).read a = n.read a := by
        intro qs
        induction qs with
        | nil => exact fun n _ => rfl
        | cons q qs ihq =>
          intro n hq
          rw [List.foldl_cons, ihq _ (fun ⟨r, hr, hh⟩ => hq ⟨r, by simp [hr], hh⟩), Memory.read_plot,
            if_neg (fun k => hq ⟨q, by simp, k⟩)]
      rw [hrest ps _ hps, Memory.read_plot, if_pos hp]

/-- What plotting a cell set does to every other cell. -/
theorem Memory.read_plotAll_not_mem (cells : List Coord) (c : Color) (m : Memory) (a : Nat)
    (h : ¬ ∃ p ∈ cells, InRange p.1 p.2 ∧ a = idx p.1 p.2) : (m.plotAll cells c).read a = m.read a := by
  unfold Memory.plotAll
  induction cells generalizing m with
  | nil => rfl
  | cons p ps ih =>
    rw [List.foldl_cons, ih _ (fun ⟨q, hq, hh⟩ => h ⟨q, by simp [hq], hh⟩), Memory.read_plot,
      if_neg (fun k => h ⟨p, by simp, k⟩)]

theorem Memory.wf_plotAll (cells : List Coord) (c : Color) (m : Memory) (h : m.wf = true) :
    (m.plotAll cells c).wf = true := by
  unfold Memory.plotAll
  induction cells generalizing m with
  | nil => exact h
  | cons p ps ih => exact ih _ (Memory.wf_plot m _ _ c h)

/-! ## Filling -/

theorem Memory.read_writes (as : List Nat) (c : Color) (m : Memory) (b : Nat) :
    (as.foldl (fun n a => n.write a c) m).read b = if b ∈ as then c else m.read b := by
  induction as generalizing m with
  | nil => simp
  | cons a as ih =>
    rw [List.foldl_cons, ih, Memory.read_write]
    by_cases h : b ∈ as <;> by_cases h' : b = a <;> simp [h, h']

/-- What a fill does to every cell (R103). -/
theorem Memory.read_fill (m : Memory) (c : Color) (a : Nat) : (m.fill c).read a = if a < 64 then c else m.read a := by
  simp [Memory.fill, Memory.read_writes, Config.cellCount, Config.gridWidth, Config.gridHeight]

theorem Memory.wf_fill (m : Memory) (c : Color) (h : m.wf = true) : (m.fill c).wf = true := by
  have key : ∀ (as : List Nat) (n : Memory), (∀ a ∈ as, a < 64) → n.wf = true →
      (as.foldl (fun n a => n.write a c) n).wf = true := by
    intro as
    induction as with
    | nil => exact fun n _ hn => hn
    | cons a as ih =>
      intro n has hn
      exact ih _ (fun b hb => has b (by simp [hb])) (Memory.wf_write _ _ _ (has a (by simp)) hn)
  exact key _ m (by simp [Config.cellCount, Config.gridWidth, Config.gridHeight]) h

/-! ## The members of the cell sets -/

theorem mem_run (lo : Int) (n : Nat) (v : Int) : v ∈ run lo n ↔ lo ≤ v ∧ v < lo + n := by
  simp only [run, List.mem_map, List.mem_range]
  constructor
  · rintro ⟨i, hi, rfl⟩; omega
  · rintro ⟨h1, h2⟩; exact ⟨(v - lo).toNat, by omega, by omega⟩

theorem mem_hLineCells (x y p u v : Int) : (u, v) ∈ hLineCells x y p ↔ v = y ∧ x ≤ u ∧ u < x + p := by
  simp only [hLineCells, List.mem_map, mem_run, Prod.mk.injEq]
  constructor
  · rintro ⟨a, h, rfl, rfl⟩; omega
  · rintro ⟨rfl, h⟩; exact ⟨u, by omega, rfl, rfl⟩

theorem mem_vLineCells (x y p u v : Int) : (u, v) ∈ vLineCells x y p ↔ u = x ∧ y ≤ v ∧ v < y + p := by
  simp only [vLineCells, List.mem_map, mem_run, Prod.mk.injEq]
  constructor
  · rintro ⟨a, h, rfl, rfl⟩; omega
  · rintro ⟨rfl, h⟩; exact ⟨v, by omega, rfl, rfl⟩

theorem mem_rectCells (x y p q u v : Int) :
    (u, v) ∈ rectCells x y p q ↔
      (x ≤ u ∧ u < x + p) ∧ (y ≤ v ∧ v < y + q) ∧ (u = x ∨ u = x + p - 1 ∨ v = y ∨ v = y + q - 1) := by
  unfold rectCells
  split
  · simp only [List.not_mem_nil, false_iff]; omega
  · simp only [List.mem_append, mem_hLineCells, mem_vLineCells]; omega

theorem mem_fillRectCells (x y p q u v : Int) :
    (u, v) ∈ fillRectCells x y p q ↔ (x ≤ u ∧ u < x + p) ∧ (y ≤ v ∧ v < y + q) := by
  simp only [fillRectCells, List.mem_flatMap, mem_run, mem_hLineCells]
  constructor
  · rintro ⟨a, h, rfl, h'⟩; omega
  · rintro ⟨h, h'⟩; exact ⟨v, by omega, rfl, h⟩

theorem mem_symmetricRun (r v : Int) : v ∈ symmetricRun r ↔ -r ≤ v ∧ v ≤ r := by
  rw [symmetricRun, mem_run]; omega

theorem mem_octants (x0 y0 x y u v : Int) :
    (u, v) ∈ octants x0 y0 x y ↔
      ((u = x0 + x ∧ v = y0 + y) ∨ (u = x0 - x ∧ v = y0 + y) ∨ (u = x0 + x ∧ v = y0 - y) ∨ (u = x0 - x ∧ v = y0 - y) ∨
       (u = x0 + y ∧ v = y0 + x) ∨ (u = x0 - y ∧ v = y0 + x) ∨ (u = x0 + y ∧ v = y0 - x) ∨ (u = x0 - y ∧ v = y0 - x)) := by
  simp [octants, Prod.ext_iff]

/-- The dense scan's members (R146), by offset. -/
theorem mem_discCells (x0 y0 r u v : Int) :
    (u, v) ∈ discCells x0 y0 r ↔
      (-r ≤ u - x0 ∧ u - x0 ≤ r) ∧ (-r ≤ v - y0 ∧ v - y0 ≤ r) ∧
        (u - x0) * (u - x0) + (v - y0) * (v - y0) ≤ r * r := by
  simp only [discCells, List.mem_flatMap, List.mem_map, List.mem_filter, mem_symmetricRun, decide_eq_true_eq, Prod.mk.injEq]
  constructor
  · rintro ⟨dy, hdy, dx, ⟨hdx, hr⟩, rfl, rfl⟩
    simp only [add_sub_cancel_left]; exact ⟨hdx, hdy, hr⟩
  · rintro ⟨hdx, hdy, hr⟩
    exact ⟨v - y0, hdy, u - x0, ⟨hdx, hr⟩, by omega, by omega⟩

end Sys2Proof.Machine
end

