-- ==== Sys2Proof/Laws/Encoding.lean ====
section
/-! SUPPORT. The laws of command words: the fields of a packed word, words as their six fields, and a row's match read field
by field. -/

-- Declarations are checked one at a time: many at once, each on a thread with a stack of its own, exhaust the address space.
set_option Elab.async false

namespace Sys2Proof

/-! ## Fields of a packed word (R60) -/

section
variable (op x y p q : Byte) (c : Color)

@[simp] theorem opField_packFields : opField (packFields op x y p q c) = op := by
  apply BitVec.eq_of_getLsbD_eq
  intro i hi
  simp only [opField, packFields, BitVec.getLsbD_extractLsb', BitVec.getLsbD_append]
  interval_cases i <;> simp

@[simp] theorem xField_packFields : xField (packFields op x y p q c) = x := by
  apply BitVec.eq_of_getLsbD_eq
  intro i hi
  simp only [xField, packFields, BitVec.getLsbD_extractLsb', BitVec.getLsbD_append]
  interval_cases i <;> simp

@[simp] theorem yField_packFields : yField (packFields op x y p q c) = y := by
  apply BitVec.eq_of_getLsbD_eq
  intro i hi
  simp only [yField, packFields, BitVec.getLsbD_extractLsb', BitVec.getLsbD_append]
  interval_cases i <;> simp

@[simp] theorem pField_packFields : pField (packFields op x y p q c) = p := by
  apply BitVec.eq_of_getLsbD_eq
  intro i hi
  simp only [pField, packFields, BitVec.getLsbD_extractLsb', BitVec.getLsbD_append]
  interval_cases i <;> simp

@[simp] theorem qField_packFields : qField (packFields op x y p q c) = q := by
  apply BitVec.eq_of_getLsbD_eq
  intro i hi
  simp only [qField, packFields, BitVec.getLsbD_extractLsb', BitVec.getLsbD_append]
  interval_cases i <;> simp

@[simp] theorem colorField_packFields : colorField (packFields op x y p q c) = c := by
  apply BitVec.eq_of_getLsbD_eq
  intro i hi
  simp only [colorField, packFields, BitVec.getLsbD_extractLsb', BitVec.getLsbD_append]
  interval_cases i <;> simp

end

/-- A word is packed from its own fields. -/
theorem packFields_fields (w : CmdWord) :
    packFields (opField w) (xField w) (yField w) (pField w) (qField w) (colorField w) = w := by
  apply BitVec.eq_of_getLsbD_eq
  intro i hi
  simp only [opField, xField, yField, pField, qField, colorField, packFields, BitVec.getLsbD_extractLsb',
    BitVec.getLsbD_append]
  interval_cases i <;> simp

/-- Words with equal fields are equal. -/
theorem word_eq_iff (w v : CmdWord) :
    w = v ↔ opField w = opField v ∧ xField w = xField v ∧ yField w = yField v ∧ pField w = pField v ∧
      qField w = qField v ∧ colorField w = colorField v := by
  constructor
  · rintro rfl; exact ⟨rfl, rfl, rfl, rfl, rfl, rfl⟩
  · rintro ⟨h1, h2, h3, h4, h5, h6⟩
    rw [← packFields_fields w, ← packFields_fields v, h1, h2, h3, h4, h5, h6]

/-- A masked word, field by field. -/
theorem masked_eq_iff (w mask pattern : CmdWord) :
    w &&& mask = pattern ↔
      opField w &&& opField mask = opField pattern ∧ xField w &&& xField mask = xField pattern ∧
      yField w &&& yField mask = yField pattern ∧ pField w &&& pField mask = pField pattern ∧
      qField w &&& qField mask = qField pattern ∧ colorField w &&& colorField mask = colorField pattern := by
  rw [word_eq_iff]
  simp only [opField, xField, yField, pField, qField, colorField, BitVec.extractLsb'_and]

/-! ## Operands (R61) -/

/-- The 8-bit form of an operand that fits reads back as the operand. -/
theorem sext8_byteOf (v : Int) (h : FitsByte v) : sext8 (byteOf v) = v := by
  simp only [sext8, byteOf, BitVec.toInt_ofInt, FitsByte] at *
  rw [Int.bmod_eq_of_le] <;> omega

theorem byteOf_sext8 (b : Byte) : byteOf (sext8 b) = b := BitVec.ofInt_toInt

theorem fitsByte_sext8 (b : Byte) : FitsByte (sext8 b) := by
  have h1 := BitVec.le_two_mul_toInt (x := b)
  have h2 := BitVec.two_mul_toInt_lt (x := b)
  simp only [sext8, FitsByte] at *
  omega

/-- The decision of well-formedness decides it. -/
theorem wellFormed_iff (i : Instr) : wellFormed i = true ↔ WellFormed i := by
  cases i <;> simp only [wellFormed, WellFormed, Bool.and_eq_true, decide_eq_true_eq, and_assoc]

end Sys2Proof
end

