-- ==== Sys2Proof/Laws/Refresh.lean ====
section
/-! SUPPORT. The laws of the refresh: its writes as one list over the channels, what emitting a list of writes does to the
channel registers, and everything `State.refresh` can do. -/

-- Declarations are checked one at a time: many at once, each on a thread with a stack of its own, exhaust the address space.
set_option Elab.async false

namespace Sys2Proof.Machine

/-! ## The writes of a refresh -/

/-- The channels in the order of the raster scan are 0, 1, …, 191. -/
theorem scan_channels :
    (scanOrder.flatMap fun y => scanOrder.flatMap fun x => componentOrder.map fun k => channelId x y k) =
      List.finRange 192 := by decide +kernel

/-- The write of channel i in a refresh of this framebuffer at this brightness. -/
def writeOf (fb : Memory) (bright : Byte) (i : ChannelId) : ChannelWrite :=
  (i, scale (colorComponent (fb.read (channelCell i)) (channelComponent i)) bright)

theorem channelCell_channelId (x y : Fin 8) (k : Component) : channelCell (channelId x y k) = 8 * y.val + x.val := by
  simp only [channelCell, channelId]; omega

theorem channelComponent_channelId (x y : Fin 8) (k : Component) : channelComponent (channelId x y k) = k := by
  apply Fin.ext; simp only [channelComponent, channelId]; omega

/-- A refresh writes the channels in order, each its own component of its own cell (R112, R116). -/
theorem rasterWrites_eq (fb : Memory) (bright : Byte) :
    rasterWrites fb bright = (List.finRange 192).map (writeOf fb bright) := by
  rw [← scan_channels]
  simp only [rasterWrites, cellWrites, writeOf, List.map_flatMap, List.map_map, Function.comp_def,
    channelCell_channelId, channelComponent_channelId]

theorem rasterWrites_length (fb : Memory) (bright : Byte) : (rasterWrites fb bright).length = 192 := by
  simp [rasterWrites_eq]

theorem rasterWrites_ids (fb : Memory) (bright : Byte) :
    (rasterWrites fb bright).map Prod.fst = List.finRange 192 := by
  simp [rasterWrites_eq, writeOf, Function.comp_def]

theorem rasterWrites_getElem? (fb : Memory) (bright : Byte) (i : ChannelId) :
    (rasterWrites fb bright)[i.val]? = some (writeOf fb bright i) := by
  simp [rasterWrites_eq]

/-! ## Emitting a list of writes -/

/-- What one write does to every channel (R182). -/
theorem emitChannel_get (b : Bool) (ch : Vector (Option Byte) 192) (w : ChannelWrite) (j : ChannelId) :
    (emitChannel b ch w).get j = if w.1 = j then (if b then some w.2 else none) else ch.get j := by
  simp only [emitChannel, Vector.get_eq_getElem, Vector.getElem_set, Fin.ext_iff]

/-- A channel that no write of the list names keeps its value. -/
theorem emitChannels_get_other (ws : List ChannelWrite) (b : Bool) (ch : Vector (Option Byte) 192) (j : ChannelId)
    (h : ∀ w ∈ ws, w.1 ≠ j) : (ws.foldl (emitChannel b) ch).get j = ch.get j := by
  induction ws generalizing ch with
  | nil => rfl
  | cons w ws ih =>
    rw [List.foldl_cons, ih _ (fun x hx => h x (by simp [hx])), emitChannel_get, if_neg (h w (by simp))]

/-- A channel that exactly one write of the list names holds that write, or ⊥ before BEGIN. -/
theorem emitChannels_get_mem (ws : List ChannelWrite) (b : Bool) (ch : Vector (Option Byte) 192)
    (hn : (ws.map Prod.fst).Nodup) (w : ChannelWrite) (hw : w ∈ ws) :
    (ws.foldl (emitChannel b) ch).get w.1 = if b then some w.2 else none := by
  induction ws generalizing ch with
  | nil => simp at hw
  | cons v ws ih =>
    simp only [List.map_cons, List.nodup_cons, List.mem_map, not_exists, not_and] at hn
    rw [List.foldl_cons]
    rcases List.mem_cons.1 hw with rfl | hw
    · rw [emitChannels_get_other _ _ _ _ hn.1, emitChannel_get, if_pos rfl]
    · exact ih _ hn.2 hw

/-! ## The refresh -/

/-- What a refresh leaves in every channel (R182). -/
theorem refresh_get (s : State) (i : ChannelId) :
    s.refresh.ch.get i = if s.begun then some (writeOf s.fb s.bright i).2 else none := by
  have hn : ((rasterWrites s.fb s.bright).map Prod.fst).Nodup := by
    rw [rasterWrites_ids]; exact List.nodup_finRange 192
  have hw : writeOf s.fb s.bright i ∈ rasterWrites s.fb s.bright := by
    rw [rasterWrites_eq]; exact List.mem_map_of_mem (List.mem_finRange i)
  have h := emitChannels_get_mem _ s.begun s.ch hn _ hw
  rw [State.refresh_ch]
  simpa only [writeOf] using h

theorem shownIntensity_refresh (s : State) (i : ChannelId) :
    shownIntensity s.refresh i = (writeOf s.fb s.bright i).2 := by
  simp only [shownIntensity, State.readCell, State.refresh_fb, State.refresh_bright, writeOf]

/-- Everything a refresh can do, in the terms of the statements. -/
theorem refresh_shows (s : State) : ShowsOneMoreFrame s.log s.refresh where
  trace := by
    refine ⟨⟨s.begun, rasterWrites s.fb s.bright⟩, State.refresh_log s, (State.refresh_begun s).symm, rasterWrites_length _ _, fun i => ?_⟩
    rw [shownIntensity_refresh]
    exact rasterWrites_getElem? _ _ i
  channels := by
    intro i
    rw [shownIntensity_refresh, refresh_get, State.refresh_begun]

/-- Answering the host does not change what the outputs show. -/
theorem ShowsOneMoreFrame.respond {l : List Frame} {t : State} (h : ShowsOneMoreFrame l t) (v : RespWord) :
    ShowsOneMoreFrame l (t.respond v) := ⟨h.trace, h.channels⟩

/-- What a fill and a shape show. -/
theorem fillAll_shows (s : State) (c : Color) : ShowsOneMoreFrame s.log (s.fillAll c) := refresh_shows (s.fillCells c)
theorem shape_shows (s : State) (cells : List Coord) (c : Color) : ShowsOneMoreFrame s.log (s.shape cells c) :=
  refresh_shows (s.plotAll cells c)

end Sys2Proof.Machine
end

