-- ==== Sys2Proof/Laws/Exec.lean ====
section
/-! SUPPORT. What each command answers, in the shared operations: cite these rather than unfold `exec`. A command's next state
is named without being computed, so that no proof evaluates a refresh. -/

namespace Sys2Proof.Machine

theorem exec_begin (s : State) : exec .begin s = .next (((s.configurePins.configurePwm Config.pwmFrequency Config.pwmResolution).fillAll black).respond 1) := rfl
theorem exec_update (s : State) : exec .update s = .next (s.refresh.respond 0) := rfl
theorem exec_setBright (v : Byte) (s : State) : exec (.setBright v) s = .next ((s.setBrightness v).respond 0) := rfl
theorem exec_getBright (s : State) : exec .getBright s = .next (s.respond (zextByte s.bright)) := rfl
theorem exec_setPixel (x y : Int) (c : Color) (s : State) : exec (.setPixel x y c) s = .next ((s.plot x y c).respond 0) := rfl
theorem exec_getPixel (x y : Int) (s : State) : exec (.getPixel x y) s = .next (s.respond (if InRange x y then zextColor (s.readCell (idx x y)) else 0)) := rfl
theorem exec_clear (s : State) : exec .clear s = .next ((s.fillAll black).respond 0) := rfl
theorem exec_clearColor (c : Color) (s : State) : exec (.clearColor c) s = .next ((s.fillAll c).respond 0) := rfl
theorem exec_fillColor (c : Color) (s : State) : exec (.fillColor c) s = .next ((s.fillAll c).respond 0) := rfl
theorem exec_drawHLine (x y n : Int) (c : Color) (s : State) : exec (.drawHLine x y n c) s = .next ((s.shape (hLineCells x y n) c).respond 0) := rfl
theorem exec_drawVLine (x y n : Int) (c : Color) (s : State) : exec (.drawVLine x y n c) s = .next ((s.shape (vLineCells x y n) c).respond 0) := rfl
theorem exec_drawRect (x y w h : Int) (c : Color) (s : State) : exec (.drawRect x y w h c) s = .next ((s.shape (rectCells x y w h) c).respond 0) := rfl
theorem exec_fillRect (x y w h : Int) (c : Color) (s : State) : exec (.fillRect x y w h c) s = .next ((s.shape (fillRectCells x y w h) c).respond 0) := rfl
theorem exec_drawCircle (x y r : Int) (c : Color) (s : State) : exec (.drawCircle x y r c) s = .next ((s.shape (circleCells x y r) c).respond 0) := rfl
theorem exec_fillCircle (x y r : Int) (c : Color) (s : State) : exec (.fillCircle x y r c) s = .next ((s.shape (discCells x y r) c).respond 0) := rfl

end Sys2Proof.Machine
end

