-- ==== Sys2Proof/Laws/PerInstr.lean ====
section
/-! SUPPORT. The family EncodedOpcode, one lemma for each command: the word that the encoder makes carries the command's opcode
byte (R63), and every field that R62 does not list for the command is zero in it (R66). -/

-- Declarations are checked one at a time: many at once, each on a thread with a stack of its own, exhaust the address space.
set_option Elab.async false

namespace Sys2Proof.Laws.EncodedOpcode

/-- The encoded word has the command's opcode and zeros in the fields the command does not use. -/
def Statement (i : Instr) : Prop := opField (encode i) = opcodeByte i.opcode ∧ sbzZero i.opcode (encode i) = true

theorem begin : Statement .begin := by
  simp [Statement, encode, sbzZero, fieldUse, Instr.opcode]
theorem update : Statement .update := by
  simp [Statement, encode, sbzZero, fieldUse, Instr.opcode]
theorem setBright (v : Byte) : Statement (.setBright v) := by
  simp [Statement, encode, sbzZero, fieldUse, Instr.opcode]
theorem getBright : Statement .getBright := by
  simp [Statement, encode, sbzZero, fieldUse, Instr.opcode]
theorem setPixel (x y : Int) (c : Color) : Statement (.setPixel x y c) := by
  simp [Statement, encode, sbzZero, fieldUse, Instr.opcode]
theorem getPixel (x y : Int) : Statement (.getPixel x y) := by
  simp [Statement, encode, sbzZero, fieldUse, Instr.opcode]
theorem clear : Statement .clear := by
  simp [Statement, encode, sbzZero, fieldUse, Instr.opcode]
theorem clearColor (c : Color) : Statement (.clearColor c) := by
  simp [Statement, encode, sbzZero, fieldUse, Instr.opcode]
theorem fillColor (c : Color) : Statement (.fillColor c) := by
  simp [Statement, encode, sbzZero, fieldUse, Instr.opcode]
theorem drawHLine (x y n : Int) (c : Color) : Statement (.drawHLine x y n c) := by
  simp [Statement, encode, sbzZero, fieldUse, Instr.opcode]
theorem drawVLine (x y n : Int) (c : Color) : Statement (.drawVLine x y n c) := by
  simp [Statement, encode, sbzZero, fieldUse, Instr.opcode]
theorem drawRect (x y w h : Int) (c : Color) : Statement (.drawRect x y w h c) := by
  simp [Statement, encode, sbzZero, fieldUse, Instr.opcode]
theorem fillRect (x y w h : Int) (c : Color) : Statement (.fillRect x y w h c) := by
  simp [Statement, encode, sbzZero, fieldUse, Instr.opcode]
theorem drawCircle (x y r : Int) (c : Color) : Statement (.drawCircle x y r c) := by
  simp [Statement, encode, sbzZero, fieldUse, Instr.opcode]
theorem fillCircle (x y r : Int) (c : Color) : Statement (.fillCircle x y r c) := by
  simp [Statement, encode, sbzZero, fieldUse, Instr.opcode]

end Sys2Proof.Laws.EncodedOpcode
end

