-- ==== Sys2Proof/Laws/Stream.lean ====
section
/-! SUPPORT. What a step and a word of a stream can do: cite these rather than unfold `step`, `afterStep` or `afterCommand`. -/

namespace Sys2Proof.Machine

/-! ## What every command leaves alone -/

/-- No command touches the command port. -/
theorem exec_pending {i : Instr} {s t : State} (h : exec i s = .next t) : t.pending = s.pending := by
  cases i <;>
    simp only [exec_begin, exec_update, exec_setBright, exec_getBright, exec_setPixel, exec_getPixel, exec_clear,
      exec_clearColor, exec_fillColor, exec_drawHLine, exec_drawVLine, exec_drawRect, exec_fillRect, exec_drawCircle,
      exec_fillCircle, Host.Outcome.next.injEq] at h <;>
    subst h <;> simp

/-- No command touches the refusal mark (R202). -/
theorem exec_refusalMark {i : Instr} {s t : State} (h : exec i s = .next t) : t.refusalMark = s.refusalMark := by
  cases i <;>
    simp only [exec_begin, exec_update, exec_setBright, exec_getBright, exec_setPixel, exec_getPixel, exec_clear,
      exec_clearColor, exec_fillColor, exec_drawHLine, exec_drawVLine, exec_drawRect, exec_fillRect, exec_drawCircle,
      exec_fillCircle, Host.Outcome.next.injEq] at h <;>
    subst h <;> simp

/-! ## A step -/

/-- The step with no word on the port (log entry 3). -/
theorem afterStep_idle {s : State} (h : s.pending = none) : afterStep s = s := by
  simp [afterStep, step, runPending, h]

/-- The step of a word that decodes, by what its command answers. -/
theorem afterStep_command {s t : State} {w : CmdWord} {i : Instr} (hp : s.pending = some w) (hd : decode w = .ok i)
    (he : exec i s.takeCommand = .next t) : afterStep s = t := by
  simp [afterStep, step, runPending, runCommand, hp, hd, he]

/-- The step of a word that does not decode (R65, R66). -/
theorem afterStep_refused {s : State} {w : CmdWord} {r : DecodeRefusal} (hp : s.pending = some w) (hd : decode w = .error r) :
    afterStep s = s.refuse := by
  simp [afterStep, step, runPending, runCommand, hp, hd]

end Sys2Proof.Machine
end

