-- ==== Sys2Proof/Tests/Slice0.lean ====
section
/-! SUPPORT. Tests on fixed values, and for each statement with hypotheses a concrete case that meets them. Every expected value
is the spec's own: its test vectors (95_test_vectors.md, named V-…), its worked examples, or a word written out from R60 to
R63. -/

-- Declarations are checked one at a time: many at once, each on a thread with a stack of its own, exhaust the address space.
set_option Elab.async false

namespace Sys2Proof.Tests

open Sys2Proof Sys2Proof.Machine

/-! ## WellFormed: an ill-formed term for each operand that has a range (R61, R69) -/

theorem test_wellFormed_setPixel : wellFormed (.setPixel (-129) 0 0) = false ∧ wellFormed (.setPixel 0 128 0) = false ∧
    wellFormed (.setPixel (-128) 127 0xFFFFFF#24) = true := by decide
theorem test_wellFormed_getPixel : wellFormed (.getPixel 128 0) = false ∧ wellFormed (.getPixel 0 (-129)) = false ∧
    wellFormed (.getPixel 127 (-128)) = true := by decide
theorem test_wellFormed_lines :
    wellFormed (.drawHLine 128 0 0 0) = false ∧ wellFormed (.drawHLine 0 128 0 0) = false ∧
    wellFormed (.drawHLine 0 0 128 0) = false ∧ wellFormed (.drawVLine (-129) 0 0 0) = false ∧
    wellFormed (.drawVLine 0 (-129) 0 0) = false ∧ wellFormed (.drawVLine 0 0 (-129) 0) = false ∧
    wellFormed (.drawVLine (-128) 127 (-128) 0) = true := by decide
theorem test_wellFormed_rects :
    wellFormed (.drawRect 128 0 0 0 0) = false ∧ wellFormed (.drawRect 0 128 0 0 0) = false ∧
    wellFormed (.drawRect 0 0 128 0 0) = false ∧ wellFormed (.drawRect 0 0 0 128 0) = false ∧
    wellFormed (.fillRect (-129) 0 0 0 0) = false ∧ wellFormed (.fillRect 0 (-129) 0 0 0) = false ∧
    wellFormed (.fillRect 0 0 (-129) 0 0) = false ∧ wellFormed (.fillRect 0 0 0 (-129) 0) = false ∧
    wellFormed (.fillRect 127 127 127 127 0) = true := by decide
theorem test_wellFormed_circles :
    wellFormed (.drawCircle 128 0 0 0) = false ∧ wellFormed (.drawCircle 0 (-129) 0 0) = false ∧
    wellFormed (.drawCircle 0 0 128 0) = false ∧ wellFormed (.fillCircle (-129) 0 0 0) = false ∧
    wellFormed (.fillCircle 0 128 0 0) = false ∧ wellFormed (.fillCircle 0 0 (-129) 0) = false ∧
    wellFormed (.fillCircle (-128) (-128) 127 0) = true := by decide

/-! ## Decoding: one word at least for each command, written out from R60 to R63 or taken from the vectors -/

theorem test_decode_system :
    decode 0x0100000000000000#64 = .ok .begin ∧ decode 0x0200000000000000#64 = .ok .update ∧
    decode 0x030000C800000000#64 = .ok (.setBright 200#8) ∧ decode 0x030000FF00000000#64 = .ok (.setBright 255#8) ∧
    decode 0x0400000000000000#64 = .ok .getBright := by decide +kernel
theorem test_decode_pixel :
    decode 0x1003020000123456#64 = .ok (.setPixel 3 2 0x123456#24) ∧
    decode 0x10FF03000000FF00#64 = .ok (.setPixel (-1) 3 0x00FF00#24) ∧
    decode 0x1103020000000000#64 = .ok (.getPixel 3 2) ∧ decode 0x1180800000000000#64 = .ok (.getPixel (-128) (-128)) ∧
    decode 0x117F000000000000#64 = .ok (.getPixel 127 0) := by decide +kernel
theorem test_decode_bulk :
    decode 0x2000000000000000#64 = .ok .clear ∧ decode 0x2100000000102030#64 = .ok (.clearColor 0x102030#24) ∧
    decode 0x2200000000FF0000#64 = .ok (.fillColor 0xFF0000#24) := by decide +kernel
theorem test_decode_lines :
    decode 0x30060705000000FF#64 = .ok (.drawHLine 6 7 5 0x0000FF#24) ∧
    decode 0x3100FE040000FF00#64 = .ok (.drawVLine 0 (-2) 4 0x00FF00#24) ∧
    decode 0x3103FB1400FF0000#64 = .ok (.drawVLine 3 (-5) 20 0xFF0000#24) := by decide +kernel
theorem test_decode_rects :
    decode 0x3201010403FFFFFF#64 = .ok (.drawRect 1 1 4 3 0xFFFFFF#24) ∧
    decode 0x3302020303FF0000#64 = .ok (.fillRect 2 2 3 3 0xFF0000#24) ∧
    decode 0x33FFFF0303FF0000#64 = .ok (.fillRect (-1) (-1) 3 3 0xFF0000#24) := by decide +kernel
theorem test_decode_circles :
    decode 0x3404040300FFFFFF#64 = .ok (.drawCircle 4 4 3 0xFFFFFF#24) ∧
    decode 0x350404010000FF00#64 = .ok (.fillCircle 4 4 1 0x00FF00#24) ∧
    decode 0x3504040100102030#64 = .ok (.fillCircle 4 4 1 0x102030#24) := by decide +kernel
/-- V-EN2, V-EN4, V-EN5. -/
theorem test_decode_reserved :
    decode 0x0000000000000000#64 = .error .reservedOpcode ∧ decode 0x0500000000000000#64 = .error .reservedOpcode ∧
    decode 0xFF12345678ABCDEF#64 = .error .reservedOpcode := by decide +kernel
/-- V-EN3, V-EN7, V-EN10, V-EN11, V-EN14, V-EN15. -/
theorem test_decode_nonzeroSbz :
    decode 0x0100000000000001#64 = .error .nonzeroSbz ∧ decode 0x030000C801000000#64 = .error .nonzeroSbz ∧
    decode 0x1007070100ABCDEF#64 = .error .nonzeroSbz ∧ decode 0x1100000000000001#64 = .error .nonzeroSbz ∧
    decode 0x3404040301FFFFFF#64 = .error .nonzeroSbz ∧ decode 0x0380808000000000#64 = .error .nonzeroSbz := by decide +kernel
theorem test_encode_words :
    encode (.fillRect 2 2 3 3 0xFF0000#24) = 0x3302020303FF0000#64 ∧
    encode (.drawVLine 3 (-5) 20 0xFF0000#24) = 0x3103FB1400FF0000#64 ∧
    encode (.setBright 200#8) = 0x030000C800000000#64 := by decide +kernel
/-- The host's entries: a row's word with its 64 bits, and a word of fewer bits, whose missing bits are zero. -/
theorem test_tableWord :
    decodeTableWord 64 0x10FF03000000FF00 = some (.setPixel (-1) 3 0x00FF00#24) ∧ decodeTableWord 64 0 = none ∧
    (State.reset.withFetchWord 64 0x0400000000000000).pending = some 0x0400000000000000#64 ∧
    decodeTableWord 56 0x0100000000000000 = none := by decide +kernel
/-- R43: the most significant byte goes first. -/
theorem test_byte_serial :
    cmdBytes 0x10FF03000000FF00#64 = [0x10, 0xFF, 0x03, 0x00, 0x00, 0x00, 0xFF, 0x00] ∧
    respBytes 0x00123456#32 = [0x00, 0x12, 0x34, 0x56] ∧
    decodeBytes [0x03, 0, 0, 0xC8, 0, 0, 0, 0, 0x02] = some (.ok (.setBright 200#8), [0x02]) ∧
    decodeBytes [0x03, 0, 0] = none := by decide +kernel

/-! ## One step on a small state -/

/-- After BEGIN: the given framebuffer and brightness, every channel 0, no frame in the trace. -/
def shownState (bright : Byte) (fb : Memory) : State where
  fb := fb
  bright := bright
  ch := Vector.replicate 192 (some 0)
  pinsCfg := true
  pwmCfg := true
  pwmFreq := some Config.pwmFrequency
  pwmRes := some Config.pwmResolution
  resp := some 0x00000001#32
  log := []
  refusalMark := false
  pending := none

/-- The cells that a word leaves, from a black grid at brightness 255. -/
def drawn (w : CmdWord) : Memory := (afterCommand (shownState 255 []) w).fb

/-- A list of coordinates in row-major order, all of one colour. -/
def cellsOf (c : Color) (cells : List (Nat × Nat)) : Memory := cells.map (fun p => (8 * p.2 + p.1, c))

/-- R80: BEGIN's channels, status, response and frame. -/
theorem test_begin_configures :
    let t := afterCommand { State.reset with bright := 9 } 0x0100000000000000#64
    t.ch = Vector.replicate 192 (some 0) ∧ t.pinsCfg = true ∧ t.pwmCfg = true ∧ t.resp = some 0x00000001#32 ∧
      t.log = [⟨true, (List.finRange 192).map (fun i => (i, 0#8))⟩] := by decide +kernel
/-- V-BR6 and R80: BEGIN discards what was drawn and keeps the brightness. -/
theorem test_begin_clears :
    let t := afterCommand { State.reset with bright := 9, fb := [(26, 0xFFFFFF#24)] } 0x0100000000000000#64
    t.fb = [] ∧ t.bright = 9#8 := by decide +kernel
/-- V-RF2: brightness 128 over FB[0] = 0xFF8000. -/
theorem test_update_scales :
    let t := afterCommand (shownState 128 [(0, 0xFF8000#24)]) 0x0200000000000000#64
    (t.log.map fun f => (f.cfg, f.writes.take 4, f.writes.length)) = [(true, [(0, 128), (1, 64), (2, 0), (3, 0)], 192)] ∧
      t.ch.get 0 = some 128 ∧ t.ch.get 1 = some 64 ∧ t.ch.get 2 = some 0 := by decide +kernel
/-- V-RF4: without BEGIN the frame is recorded, and the channel stays undefined. -/
theorem test_update_before_begin :
    let t := afterCommand { State.reset with bright := 77, fb := [(63, 0x0000FF#24)] } 0x0200000000000000#64
    (t.log.map fun f => (f.cfg, f.writes.drop 191)) = [(false, [(191, 77)])] ∧ t.ch.get 191 = none := by decide +kernel
/-- V-EN6 and V-BR5: no frame, and the channels keep their values. -/
theorem test_setBright :
    let t := afterCommand (shownState 255 [(0, 0x808080#24)]) 0x030000C800000000#64
    t.bright = 200#8 ∧ t.log = [] ∧ t.ch.get 0 = some 0 ∧ t.resp = some 0 := by decide +kernel
/-- R131's example. -/
theorem test_getBright : (afterCommand (shownState 128 []) 0x0400000000000000#64).resp = some 0x00000080#32 := by decide +kernel
/-- V-EN9. -/
theorem test_setPixel_last_cell : drawn 0x1007070000ABCDEF#64 = [(63, 0xABCDEF#24)] := by decide +kernel
/-- V-EN8, and V-PX8: the last write wins, here black. -/
theorem test_setPixel_clips :
    drawn 0x10FF03000000FF00#64 = [] ∧
    (afterCommand (shownState 255 [(9, 0x000001#24), (27, 0x123456#24)]) 0x1003030000000000#64).fb = [(9, 0x000001#24)] := by
  decide +kernel
/-- V-PX2, V-PX3. -/
theorem test_getPixel_reads :
    (afterCommand (shownState 128 [(19, 0x123456#24)]) 0x1103020000000000#64).resp = some 0x00123456#32 ∧
    (afterCommand (shownState 128 [(19, 0x123456#24)]) 0x1102030000000000#64).resp = some 0x00000000#32 := by decide +kernel
/-- V-PX4, V-PX5, and R92 at (8, 0). -/
theorem test_getPixel_clips :
    (afterCommand (shownState 128 [(0, 0x123456#24), (8, 0x123456#24)]) 0x1180800000000000#64).resp = some 0x00000000#32 ∧
    (afterCommand (shownState 128 [(0, 0x123456#24), (8, 0x123456#24)]) 0x117F000000000000#64).resp = some 0x00000000#32 ∧
    (afterCommand (shownState 128 [(0, 0x123456#24), (8, 0x123456#24)]) 0x1108000000000000#64).resp = some 0x00000000#32 := by
  decide +kernel
/-- V-BF1. -/
theorem test_clear :
    let t := afterCommand (shownState 255 [(0, 0xFFFFFF#24)]) 0x2000000000000000#64
    t.fb = [] ∧ t.log = [⟨true, (List.finRange 192).map (fun i => (i, 0#8))⟩] := by decide +kernel
/-- V-BF2. -/
theorem test_clearColor :
    let t := afterCommand (shownState 255 []) 0x2100000000808080#64
    t.fb = (List.range 64).map (fun a => (a, 0x808080#24)) ∧
      t.log = [⟨true, (List.finRange 192).map (fun i => (i, 128#8))⟩] := by decide +kernel
/-- V-BF3. -/
theorem test_fillColor :
    let t := afterCommand (shownState 255 []) 0x2200000000010203#64
    t.fb = (List.range 64).map (fun a => (a, 0x010203#24)) ∧
      (t.log.map fun f => f.writes.drop 186) = [[(186, 1), (187, 2), (188, 3), (189, 1), (190, 2), (191, 3)]] := by
  decide +kernel
/-- V-SH3. -/
theorem test_drawHLine_right : drawn 0x30060705000000FF#64 = cellsOf 0x0000FF#24 [(6, 7), (7, 7)] := by decide +kernel
/-- V-SH2 (X = −3, P = 5), V-SH4 and V-SH5. -/
theorem test_drawHLine_left :
    drawn 0x30FD00050000000A#64 = cellsOf 0x00000A#24 [(0, 0), (1, 0)] ∧ drawn 0x300008080000000A#64 = [] ∧
    drawn 0x300202000000000A#64 = [] := by decide +kernel
/-- V-SH6. -/
theorem test_drawVLine_top : drawn 0x3100FE040000FF00#64 = cellsOf 0x00FF00#24 [(0, 0), (0, 1)] := by decide +kernel
/-- V-SH7 (P = −2): no cell, and one frame all the same. -/
theorem test_drawVLine_negative :
    drawn 0x310705FE00000001#64 = [] ∧
    (afterCommand (shownState 255 []) 0x310705FE00000001#64).log.length = 1 := by decide +kernel
/-- V-SH8. -/
theorem test_drawRect_outline :
    drawn 0x3201010403FFFFFF#64 =
      cellsOf 0xFFFFFF#24 [(1, 1), (2, 1), (3, 1), (4, 1), (1, 2), (4, 2), (1, 3), (2, 3), (3, 3), (4, 3)] := by decide +kernel
/-- V-SH11, V-SH12. -/
theorem test_drawRect_clipped :
    drawn 0x3206060404000001#64 = cellsOf 0x000001#24 [(6, 6), (7, 6), (6, 7)] ∧ drawn 0x3200000005000001#64 = [] := by
  decide +kernel
/-- V-S1. -/
theorem test_fillRect_middle :
    drawn 0x3302020303FF0000#64 =
      cellsOf 0xFF0000#24 [(2, 2), (3, 2), (4, 2), (2, 3), (3, 3), (4, 3), (2, 4), (3, 4), (4, 4)] := by decide +kernel
/-- V-EN12, V-SH22. -/
theorem test_fillRect_clipped :
    drawn 0x33FFFF0303FF0000#64 = cellsOf 0xFF0000#24 [(0, 0), (1, 0), (0, 1), (1, 1)] ∧ drawn 0x3303030004FF0000#64 = [] := by
  decide +kernel
/-- V-S2. -/
theorem test_drawCircle_three :
    drawn 0x3404040300FFFFFF#64 =
      cellsOf 0xFFFFFF#24 [(3, 1), (4, 1), (5, 1), (2, 2), (6, 2), (1, 3), (7, 3), (1, 4), (7, 4), (1, 5), (7, 5), (2, 6), (6, 6),
        (3, 7), (4, 7), (5, 7)] := by decide +kernel
/-- V-SH13 (it rests on decision D28) and V-SH16. -/
theorem test_drawCircle_four :
    drawn 0x3404040400000001#64 =
      cellsOf 0x000001#24 [(3, 0), (4, 0), (5, 0), (1, 1), (2, 1), (6, 1), (7, 1), (1, 2), (7, 2), (0, 3), (0, 4), (0, 5), (1, 6),
        (7, 6), (1, 7), (2, 7), (6, 7), (7, 7)] ∧
    drawn 0x340404FF00000001#64 = [] := by decide +kernel
/-- V-SH24. -/
theorem test_fillCircle_two :
    drawn 0x3504040200000001#64 =
      cellsOf 0x000001#24 [(4, 2), (3, 3), (4, 3), (5, 3), (2, 4), (3, 4), (4, 4), (5, 4), (6, 4), (3, 5), (4, 5), (5, 5), (4, 6)] := by
  decide +kernel
/-- V-SH26, V-SH27 (r = −3). -/
theorem test_fillCircle_corner :
    drawn 0x3500000200000001#64 = cellsOf 0x000001#24 [(0, 0), (1, 0), (2, 0), (0, 1), (1, 1), (0, 2)] ∧
    drawn 0x350000FD00000001#64 = [] := by decide +kernel
/-- P6's refused word: the mark is set, RESP and the framebuffer stay. -/
theorem test_refused_word :
    let s := shownState 128 [(1, 0x00FF00#24)]
    afterCommand s 0x0500000000000000#64 = { s with refusalMark := true } := by rfl
/-- R226: a word issued while SETBRIGHT 200 is still on the port waits for it, and neither is lost. -/
theorem test_outstanding_word_runs_first :
    let t := afterCommand { shownState 128 [] with pending := some 0x030000C800000000#64 } 0x0400000000000000#64
    t.bright = 200#8 ∧ t.resp = some 200#32 ∧ t.pending = none := by decide +kernel
/-- V-RS5, and a read after a command. -/
theorem test_host_reads_response :
    hostReadResponse State.reset = .error .respUndefined ∧
    (responses (shownState 128 []) [0x0400000000000000#64, 0x0500000000000000#64]) = [.ok 0x80#32, .ok 0x80#32] := by
  decide +kernel

/-! ## Pure functions -/

/-- The table of 2.4. -/
theorem test_scale_table :
    ([(0, 0, 0), (254, 254, 253), (255, 0, 0), (254, 1, 0), (0, 255, 0), (255, 1, 1), (255, 255, 255), (1, 255, 1), (17, 255, 17),
      (127, 2, 0), (255, 128, 128), (128, 2, 1), (128, 128, 64), (100, 100, 39), (1, 254, 0), (200, 200, 156), (16, 200, 12),
      (32, 200, 25), (48, 200, 37), (255, 200, 200)] : List (Byte × Byte × Byte)).all
      (fun e => scale e.1 e.2.1 == e.2.2) = true := by decide +kernel
/-- V-CO1 to V-CO8, V-S9, V-S10. -/
theorem test_colors :
    packColor 0x12 0x34 0x56 = 0x123456#24 ∧ unpackColor 0xFF8000#24 = (255, 128, 0) ∧
    blendColor 0x000000#24 0xFFFFFF#24 128 = 0x808080#24 ∧ blendColor 0xFFFFFF#24 0x000000#24 128 = 0x7F7F7F#24 ∧
    blendColor 0x123456#24 0xABCDEF#24 255 = 0xABCDEF#24 ∧ blendColor 0xFF0000#24 0x0000FF#24 64 = 0xBF0040#24 ∧
    blendColor 0xFFFFFF#24 0x000000#24 1 = 0xFEFEFE#24 ∧ blendColor 0x010101#24 0x000000#24 254 = 0x000000#24 ∧
    blendColor 0x123456#24 0xABCDEF#24 0 = 0x123456#24 := by decide +kernel
/-- V-DR1 to V-DR4. -/
theorem test_channels :
    channelId 0 0 0 = 0 ∧ channelId 3 2 1 = 58 ∧ channelId 7 7 2 = 191 ∧
    channelRow 100 = 4 ∧ channelColumn 100 = 1 ∧ channelComponent 100 = 1 ∧
    muxLines (58, 9) = ⟨2, 3, 1, 9⟩ ∧ muxLines (191, 1) = ⟨7, 7, 2, 1⟩ := by decide +kernel
/-- V-DR5. -/
theorem test_emit_unbegun : (State.reset.emit (5, 77)).ch.get 5 = none ∧ ((shownState 0 []).emit (5, 77)).ch.get 5 = some 77 := by
  decide +kernel

/-! ## The assembler -/

/-- R69's and R73's lines. -/
theorem test_assembler_lines :
    assembleProgram ["FILLRECT   2, 2, 3, 3, COLOR_RED ; nine cells", "", "DRAWCIRCLE 4, 4, 3, COLOR_WHITE", "SETPIXEL -1, 3, #0x00Ff00",
      "SETBRIGHT 200", "BEGIN"] =
      some [0x3302020303FF0000#64, 0x3404040300FFFFFF#64, 0x10FF03000000FF00#64, 0x030000C800000000#64, 0x0100000000000000#64] := by
  decide +kernel
/-- R69, R70, V-CO9: refused lines. -/
theorem test_assembler_refuses :
    assembleLine "SETBRIGHT 256" = none ∧ assembleLine "SETPIXEL 128, 0, #0x000000" = none ∧
    assembleLine "CLEARCOLOR COLOR_BLUE" = none ∧ assembleLine "CLEARCOLOR #0x12345" = none ∧ assembleLine "NOP" = none ∧
    assembleLine "SETPIXELRGB 0, 0, 256, 0, 0" = none := by decide +kernel
/-- R72. -/
theorem test_assembler_pseudo :
    assembleProgram ["SETPIXELRGB 1, 2, 18, 52, 86", "SHOWBRIGHT 200", "FILLCOLORRGB 255, 0, 0"] =
      some [0x1001020000123456#64, 0x030000C800000000#64, 0x0200000000000000#64, 0x2200000000FF0000#64] := by decide +kernel

/-! ## Cases that meet the hypotheses of the statements -/

/-- A begun state with one frame of zeros, as BEGIN leaves it, that meets the invariant. -/
def begunState : State := { shownState 128 [] with log := [⟨true, (List.finRange 192).map (fun i => (i, 0#8))⟩] }

theorem test_begunState_channels :
    ∀ w ∈ (List.finRange 192).map (fun i : ChannelId => (i, (0 : Byte))), begunState.ch.get w.1 = some w.2 := by
  intro w hw
  obtain ⟨i, -, rfl⟩ := List.mem_map.1 hw
  simp [begunState, shownState, Vector.get_eq_getElem]
theorem test_witness_inv (p : Option CmdWord) : Inv { begunState with pending := p } where
  fb_wf := rfl
  configured_together := rfl
  latched_freq := rfl
  latched_res := rfl
  frame_ids := by intro f hf; rw [List.mem_singleton.1 hf]; decide +kernel
  frame_order := List.pairwise_singleton _ _
  frames_unbegun := by intro h; exact absurd h (by simp [begunState, shownState, State.begun])
  channels_unbegun := by intro h; exact absurd h (by simp [begunState, shownState, State.begun])
  channels_begun := fun _ => ⟨_, rfl, rfl, test_begunState_channels⟩
  resp_top := by rintro r ⟨⟩; decide
  resp_first := by intro h; cases h

theorem test_witness_StepKeepsInvariant :
    Inv { begunState with pending := some 0x0400000000000000#64 } ∧
    ∃ t, step { begunState with pending := some 0x0400000000000000#64 } = .next t := ⟨test_witness_inv _, _, rfl⟩
theorem test_witness_StreamKeepsInvariant : Inv { begunState with pending := none } := test_witness_inv none
theorem test_witness_OutputsShowLastFrame :
    Inv { begunState with pending := none } ∧ { begunState with pending := none }.begun = true ∧
    ∃ f, begunState.log.getLast? = some f ∧ ((191 : ChannelId), (0 : Byte)) ∈ f.writes :=
  ⟨test_witness_inv none, rfl, _, rfl, by decide +kernel⟩

theorem test_witness_DecodeOfEncode : WellFormed (.drawRect (-128) 127 (-128) 127 0xFFFFFF#24) := by decide
theorem test_witness_EncodeOfDecode : decode 0x3280FF7F01ABCDEF#64 = .ok (.drawRect (-128) (-1) 127 1 0xABCDEF#24) := by
  decide +kernel
theorem test_witness_MaskCovers :
    ∃ r ∈ opRows, 0x11FF020000000000#64 &&& r.mask = r.pattern ∧ ¬ 0x11FF020000000001#64 &&& r.mask = r.pattern := by decide +kernel
theorem test_witness_AtMostOneRow :
    ∃ r₁ ∈ opRows, ∃ r₂ ∈ opRows, 0x030000FF00000000#64 &&& r₁.mask = r₁.pattern ∧ 0x030000FF00000000#64 &&& r₂.mask = r₂.pattern := by
  decide +kernel

/-- Each range of reserved opcodes at its ends. -/
theorem test_witness_ReservedOpcode :
    ([0x00, 0x05, 0x0F, 0x12, 0x1F, 0x23, 0x2F, 0x36, 0xFF] : List Nat).all (fun op =>
      let w := BitVec.ofNat 64 (op * 2 ^ 56 + 1)
      let n := (w.extractLsb' 56 8).toNat
      decide (n = 0 ∨ (0x05 ≤ n ∧ n ≤ 0x0F) ∨ (0x12 ≤ n ∧ n ≤ 0x1F) ∨ (0x23 ≤ n ∧ n ≤ 0x2F) ∨ 0x36 ≤ n) &&
        decide ((State.reset.withCommand w).pending = some w) && (decode w == .error .reservedOpcode)) = true := by decide +kernel
/-- Each unused field, with one bit set at one of its ends. -/
theorem test_witness_NonzeroSbz :
    ([(.begin, 0x0101000000000000), (.setBright, 0x0300010000000000), (.getPixel, 0x1100000100000000),
      (.drawHLine, 0x3000000080000000), (.getPixel, 0x1100000000800000)] : List (Opcode × Nat)).all (fun e =>
      let w := BitVec.ofNat 64 e.2
      let u := fieldUse e.1
      decide ((State.reset.withCommand w).pending = some w) && (w.extractLsb' 56 8 == opcodeByte e.1) &&
        ((!u.x && w.extractLsb' 48 8 != 0) || (!u.y && w.extractLsb' 40 8 != 0) || (!u.p && w.extractLsb' 32 8 != 0) ||
          (!u.q && w.extractLsb' 24 8 != 0) || (!u.color && w.extractLsb' 0 24 != 0)) &&
        (decode w == .error .nonzeroSbz)) = true := by decide +kernel

theorem test_witness_StepRunsDecodedCommand :
    (State.reset.withCommand 0x10FF03000000FF00#64).pending = some 0x10FF03000000FF00#64 ∧
    decode 0x10FF03000000FF00#64 = .ok (.setPixel (-1) 3 0x00FF00#24) := by decide +kernel
theorem test_witness_IdleStep : State.reset.pending = none := rfl
theorem test_witness_DeliverNeedsFreePort :
    State.reset.pending = none ∧ (State.reset.withCommand 0x0200000000000000#64).pending ≠ none := by decide
/-- Every command completes, so each case of the statements about completed commands is met (ResponseOfEachCommand,
FramesPerCommand, ResponseReadFaultsOnlyAtFirst, OnlySetBrightWritesBrightness, OnlyBeginConfigures, BeginAgainActsLikeFirst). -/
theorem test_witness_completed (s : State) :
    (∃ t, exec .begin s = .next t) ∧ (∃ t, exec .update s = .next t) ∧ (∃ t, exec (.setBright 9) s = .next t) ∧
    (∃ t, exec .getBright s = .next t) ∧ (∃ t, exec (.setPixel 7 7 1) s = .next t) ∧ (∃ t, exec (.getPixel 8 0) s = .next t) ∧
    (∃ t, exec .clear s = .next t) ∧ (∃ t, exec (.clearColor 1) s = .next t) ∧ (∃ t, exec (.fillColor 1) s = .next t) ∧
    (∃ t, exec (.drawHLine 0 0 8 1) s = .next t) ∧ (∃ t, exec (.drawVLine 0 0 8 1) s = .next t) ∧
    (∃ t, exec (.drawRect 0 0 8 8 1) s = .next t) ∧ (∃ t, exec (.fillRect 0 0 8 8 1) s = .next t) ∧
    (∃ t, exec (.drawCircle 4 4 3 1) s = .next t) ∧ (∃ t, exec (.fillCircle 4 4 3 1) s = .next t) :=
  ⟨⟨_, exec_begin s⟩, ⟨_, exec_update s⟩, ⟨_, exec_setBright _ s⟩, ⟨_, exec_getBright s⟩, ⟨_, exec_setPixel _ _ _ s⟩,
   ⟨_, exec_getPixel _ _ s⟩, ⟨_, exec_clear s⟩, ⟨_, exec_clearColor _ s⟩, ⟨_, exec_fillColor _ s⟩, ⟨_, exec_drawHLine _ _ _ _ s⟩,
   ⟨_, exec_drawVLine _ _ _ _ s⟩, ⟨_, exec_drawRect _ _ _ _ _ s⟩, ⟨_, exec_fillRect _ _ _ _ _ s⟩, ⟨_, exec_drawCircle _ _ _ _ s⟩,
   ⟨_, exec_fillCircle _ _ _ _ s⟩⟩
/-- A refused step, for the clauses about refused words. -/
theorem test_witness_refused : step (begunState.withCommand 0x0500000000000000#64) = .refused .reservedOpcode := by rfl

theorem test_witness_CellWriteLaws : (0 : Nat) ≠ 63 ∧ 63 < 64 ∧ Memory.wf [(0, 0x000001#24), (63, 0xFFFFFF#24)] = true := by decide
/-- The words of the two pixel commands, in range and out of range, at the ends of the grid and of the fields. -/
theorem test_witness_pixel_words :
    0x1007070000ABCDEF#64 &&& 0xFF0000FFFF000000#64 = 0x1000000000000000#64 ∧
    0x1180800000000000#64 &&& 0xFF0000FFFFFFFFFF#64 = 0x1100000000000000#64 ∧
    InRange 0 0 ∧ InRange 7 7 ∧ ¬ InRange 8 7 ∧ ¬ InRange 7 (-1) := by decide +kernel
/-- Each clause of "out of range" at its boundary. -/
theorem test_witness_BoundsSafety :
    (((-1 : Int) < 0 ∧ ¬ InRange (-1) 0) ∧ (8 ≤ (8 : Int) ∧ ¬ InRange 8 0)) ∧
    (((-1 : Int) < 0 ∧ ¬ InRange 0 (-1)) ∧ (8 ≤ (8 : Int) ∧ ¬ InRange 0 8)) := by decide
/-- The same cell, and two cells that differ in one coordinate. -/
theorem test_witness_GetPixelSees :
    (InRange 7 0 ∧ (7 : Int) = 7 ∧ (0 : Int) = 0) ∧ (InRange 7 0 ∧ InRange 0 7 ∧ ¬ ((0 : Int) = 7 ∧ (7 : Int) = 0)) := by decide
theorem test_witness_brightness_words :
    0x030000FF00000000#64 &&& 0xFFFFFF00FFFFFFFF#64 = 0x0300000000000000#64 ∧
    decode 0x0400000000000000#64 = .ok .getBright ∧ decode 0x0200000000000000#64 = .ok .update ∧
    decode 0x0100000000000000#64 = .ok .begin ∧ decode 0x2000000000000000#64 = .ok .clear := by decide +kernel
/-- Commands without a refresh between a SETBRIGHT and the next refresh, and commands that refresh. -/
theorem test_witness_BrightnessShows :
    (∀ i ∈ [Instr.setPixel 0 0 0xFFFFFF#24, .getBright, .getPixel 8 0], i.opcode.refreshes = false ∧ i.opcode ≠ .setBright) ∧
    (Instr.update).opcode.refreshes = true ∧ (Instr.drawHLine 0 0 0 0).opcode.refreshes = true ∧
    ∃ u, Runs begunState [.getBright, .setPixel 0 0 0xFFFFFF#24] u :=
  ⟨by decide, rfl, rfl, _, .cons _ _ _ _ _ (exec_getBright _) (.cons _ _ _ _ _ (exec_setPixel _ _ _ _) (.nil _))⟩
theorem test_witness_fill_words :
    0x2100000000FF0000#64 &&& 0xFFFFFFFFFF000000#64 = 0x2100000000000000#64 ∧
    0x2200000000FF0000#64 &&& 0xFFFFFFFFFF000000#64 = 0x2200000000000000#64 := by decide +kernel
theorem test_witness_ScaleProperties : (1#8 ≤ 1#8 ∧ 0#8 ≤ 255#8) ∧ (0#8 < 1#8 ∧ 254#8 < 255#8) := by decide
theorem test_witness_Emit : (0 : ChannelId) ≠ 191 ∧ begunState.begun = true ∧ State.reset.begun = false := by
  refine ⟨by decide, rfl, rfl⟩

/-- The words of the six shapes. -/
theorem test_witness_shape_words :
    0x30FD00050000000A#64 &&& 0xFF000000FF000000#64 = 0x3000000000000000#64 ∧
    0x310705FE00000001#64 &&& 0xFF000000FF000000#64 = 0x3100000000000000#64 ∧
    0x3206060404000001#64 &&& 0xFF00000000000000#64 = 0x3200000000000000#64 ∧
    0x33FFFF0303FF0000#64 &&& 0xFF00000000000000#64 = 0x3300000000000000#64 ∧
    0x340404FF00000001#64 &&& 0xFF000000FF000000#64 = 0x3400000000000000#64 ∧
    0x350000FD00000001#64 &&& 0xFF000000FF000000#64 = 0x3500000000000000#64 := by decide +kernel
/-- DRAWHLINE 6, 7, 5: its last lit cell in range, and the cell to the left of its first. -/
theorem test_witness_DrawHLine :
    (InRange 7 7 ∧ (7 : Int) = 7 ∧ (6 : Int) ≤ 7 ∧ (7 : Int) < 6 + 5) ∧
    (InRange 5 7 ∧ ¬ ((7 : Int) = 7 ∧ (6 : Int) ≤ 5 ∧ (5 : Int) < 6 + 5)) := by decide
/-- DRAWVLINE 0, −2, 4: its last lit cell, and the cell below it. -/
theorem test_witness_DrawVLine :
    (InRange 0 1 ∧ (0 : Int) = 0 ∧ (-2 : Int) ≤ 1 ∧ (1 : Int) < -2 + 4) ∧
    (InRange 0 2 ∧ ¬ ((0 : Int) = 0 ∧ (-2 : Int) ≤ 2 ∧ (2 : Int) < -2 + 4)) := by decide
/-- DRAWRECT 1, 1, 4, 3: the far corner, a cell inside the border, and a cell just outside it. -/
theorem test_witness_DrawRect :
    (InRange 4 3 ∧ ((1 : Int) ≤ 4 ∧ (4 : Int) < 1 + 4) ∧ ((1 : Int) ≤ 3 ∧ (3 : Int) < 1 + 3) ∧ (4 : Int) = 1 + 4 - 1) ∧
    (InRange 2 2 ∧ ¬ ((2 : Int) = 1 ∨ (2 : Int) = 1 + 4 - 1 ∨ (2 : Int) = 1 ∨ (2 : Int) = 1 + 3 - 1)) ∧
    (InRange 5 1 ∧ ¬ (5 : Int) < 1 + 4) := by decide
/-- FILLRECT −1, −1, 3, 3: its last lit cell, and the cell to the right of it; and a size of 0, which lights none. -/
theorem test_witness_FillRect :
    (InRange 1 1 ∧ ((-1 : Int) ≤ 1 ∧ (1 : Int) < -1 + 3)) ∧ (InRange 2 1 ∧ ¬ (2 : Int) < -1 + 3) ∧
    (InRange 3 3 ∧ ¬ ((3 : Int) ≤ 3 ∧ (3 : Int) < 3 + 0)) := by decide
/-- R145's trace (3, 0, −3), (3, 1, 3), (2, 2, 5), at the loop's test. -/
theorem test_witness_CircleLoop : CircleVisits 3 2 2 5 ∧ (2 : Int) ≥ 2 := by
  have h1 : CircleVisits 3 3 1 3 := .keepX 3 0 (-3) .start (by decide) (by decide)
  exact ⟨.stepX 3 1 3 h1 (by decide) (by decide), by decide⟩
/-- The same trace's end, (1, 3, 15), where the test fails. -/
theorem test_witness_CircleLoop_exit : CircleVisits 3 1 3 15 ∧ (1 : Int) < 3 :=
  ⟨.stepX 2 2 5 test_witness_CircleLoop.1 (by decide) (by decide), by decide⟩
/-- DRAWCIRCLE 4, 4, 3 lights (6, 6), an in-range cell. -/
theorem test_witness_DrawCircle : InRange 6 6 ∧ OnCircle 4 4 3 6 6 :=
  ⟨by decide, 2, 2, 5, test_witness_CircleLoop.1, by decide, .inl ⟨by decide, by decide⟩⟩
/-- DRAWCIRCLE with r = −1: the loop's first test fails, so the centre is unlit. -/
theorem test_witness_DrawCircle_negative : InRange 4 4 ∧ ¬ OnCircle 4 4 (-1) 4 4 := by
  refine ⟨by decide, fun ⟨x, y, d, h, hxy, _⟩ => ?_⟩
  have key : ∀ a b e, CircleVisits (-1) a b e → a < b := by
    intro a b e hv
    induction hv with
    | start => decide
    | keepX a b e _ hab _ ih => omega
    | stepX a b e _ hab _ ih => omega
  have := key x y d h
  omega
/-- FILLCIRCLE 0, 0, 2: a cell at distance exactly 2, a cell beyond it, and a negative radius. -/
theorem test_witness_FillCircle :
    (InRange 2 0 ∧ (0 : Int) ≤ 2 ∧ ((2 : Int) - 0) * (2 - 0) + (0 - 0) * (0 - 0) ≤ 2 * 2) ∧
    (InRange 2 1 ∧ ¬ ((2 : Int) - 0) * (2 - 0) + (1 - 0) * (1 - 0) ≤ 2 * 2) ∧ (InRange 0 0 ∧ ¬ (0 : Int) ≤ -1) := by decide
theorem test_witness_PlottingOrder :
    ∀ p : Coord, p ∈ [((1 : Int), (1 : Int)), (2, 2)] ↔ p ∈ [((2 : Int), (2 : Int)), (1, 1), (2, 2)] := by
  intro p; simp only [List.mem_cons, List.not_mem_nil, or_false]; tauto
/-- The extreme operands, circles that reach R149's two extreme coordinates, 127 + 127 and −128 − 127 (V-SH28), and
the ends of FILLCIRCLE's largest scan. -/
theorem test_witness_ShapeArithmetic :
    FitsByte (-128) ∧ FitsByte 127 ∧ (((254 : Int), (127 : Int)) ∈ circleCells 127 127 127) ∧
    (((-255 : Int), (-128 : Int)) ∈ circleCells (-128) (-128) 127) ∧ CircleVisits (-128) (-128) 0 259 ∧
    ((127 : Int) ∈ symmetricRun 127 ∧ (-127 : Int) ∈ symmetricRun 127) := by
  refine ⟨by decide, by decide, by decide +kernel, by decide +kernel, .start, by decide +kernel, by decide +kernel⟩

theorem test_witness_OnlyBeginConfigures : (Instr.update ≠ .begin) ∧ begunState.begun = true := ⟨by decide, rfl⟩
/-- Two states that share FB and BRIGHT and differ in the configuration, the channels and the trace. -/
theorem test_witness_EffectsIgnoreConfiguration :
    begunState.fb = { State.reset with bright := 128#8 }.fb ∧ begunState.bright = { State.reset with bright := 128#8 }.bright ∧
    begunState.begun ≠ { State.reset with bright := 128#8 }.begun := ⟨rfl, rfl, by decide⟩
theorem test_witness_RefusalMark :
    begunState.refusalMark = false ∧ (∃ i, decode 0x0200000000000000#64 = .ok i) ∧
    (begunState.withCommand 0x0500000000000000#64).pending = some 0x0500000000000000#64 ∧
    (¬ ∃ i, decode 0x0500000000000000#64 = .ok i) := by
  refine ⟨rfl, ⟨.update, by decide +kernel⟩, rfl, fun ⟨i, h⟩ => ?_⟩
  have h' : decode 0x0500000000000000#64 = .error .reservedOpcode := by decide +kernel
  rw [h'] at h; cases h
/-- An accepted line, a command that fits and one that does not, and a brightness at each side of its range. -/
theorem test_witness_Assembled :
    assemble "DRAWHLINE" [.int (-128), .int 127, .int 127, .color 0xFFFFFF#24] = some [.drawHLine (-128) 127 127 0xFFFFFF#24] ∧
    WellFormed (.setPixel 127 (-128) 0#24) ∧ ¬ WellFormed (.setPixel 128 0 0#24) ∧
    assemble "SETPIXEL" [.int 128, .int 0, .color 0#24] = none ∧ ((-1 : Int) < 0 ∧ 255 < (256 : Int)) ∧
    assemble "SETBRIGHT" [.int 256] = none ∧ assemble "SETBRIGHT" [.int 255] = some [.setBright 255#8] := by
  decide +kernel
/-- Operands that fit, and one channel at each side of each range. -/
theorem test_witness_Pseudo :
    FitsByte (-128) ∧ FitsByte 127 ∧
    ((-1 : Int) < 0 ∧ 255 < (256 : Int)) ∧
    assemble "SETPIXELRGB" [.int 0, .int 0, .int (-1), .int 0, .int 0] = none ∧
    assemble "SETPIXELRGB" [.int 0, .int 0, .int 0, .int 256, .int 0] = none ∧
    assemble "FILLCOLORRGB" [.int 0, .int 0, .int 256] = none ∧
    assemble "FILLCOLORRGB" [.int 255, .int 0, .int 255] = some [.fillColor 0xFF00FF#24] := by decide +kernel

end Sys2Proof.Tests
end

section
namespace Sys2Proof.Proofs
open Sys2Proof Sys2Proof.Machine

/-! ## The framebuffer -/

/-- Settles O20 from the laws of one write: what it makes the written cell and every other cell read (R9, R40), and that
erasing a cell and inserting it again in its place keeps the list canonical. -/
theorem cellWriteLaws : Obligations.CellWriteLaws := by
  intro m a c
  exact ⟨Memory.read_write_self m a c, fun _ hb => Memory.read_write_ne m c hb, Memory.wf_write m a c⟩

end Sys2Proof.Proofs
end

section
namespace Sys2Proof.Machine

/-! ## What a command that completes can do -/

/-- The effect of a command that completes, as the rules on the state see it: BEGIN's setup (R80), SETBRIGHT's write (R130), or
for every other command a new framebuffer `m`, canonical where the old one was, then at most one refresh, then the answer. -/
inductive CommandEffect (s : State) : Instr → State → Prop where
  | begin : CommandEffect s .begin
      (((s.configurePins.configurePwm Config.pwmFrequency Config.pwmResolution).fillAll black).respond 1)
  | setBright (v : Byte) : CommandEffect s (.setBright v) ((s.setBrightness v).respond 0)
  | silent {i : Instr} (m : Memory) (r : RespWord) (hm : s.fb.wf = true → m.wf = true) (hr : r.extractLsb' 24 8 = 0#8)
      (hb : i ≠ .begin) (hv : ∀ v, i ≠ .setBright v) : CommandEffect s i ({ s with fb := m }.respond r)
  | refreshing {i : Instr} (m : Memory) (hm : s.fb.wf = true → m.wf = true)
      (hb : i ≠ .begin) (hv : ∀ v, i ≠ .setBright v) : CommandEffect s i ({ s with fb := m }.refresh.respond 0)

/-- A value of at most 24 bits, zero-extended, leaves RESP's top byte zero. -/
theorem setWidth_top {n : Nat} (hn : n ≤ 24) (v : BitVec n) : (v.setWidth 32).extractLsb' 24 8 = 0#8 := by
  ext k hk
  simp [BitVec.getLsbD_of_ge v (24 + k) (by omega)]

/-- GETBRIGHT's answer leaves RESP's top byte zero (R131). -/
theorem zextByte_top (b : Byte) : (zextByte b).extractLsb' 24 8 = 0#8 := setWidth_top (by decide) b

/-- GETPIXEL's answer, the cell or black, leaves RESP's top byte zero (R91, R92). -/
theorem getPixel_answer_top (s : State) (x y : Int) :
    (if InRange x y then zextColor (s.readCell (idx x y)) else 0).extractLsb' 24 8 = 0#8 := by
  split
  · exact setWidth_top le_rfl (s.readCell (idx x y))
  · decide

/-- A whole-buffer fill is a refreshing effect (R103). -/
theorem CommandEffect.fillAll (s : State) {i : Instr} (c : Color) (hb : i ≠ .begin) (hv : ∀ v, i ≠ .setBright v) :
    CommandEffect s i ((s.fillAll c).respond 0) :=
  .refreshing (s.fb.fill c) (Memory.wf_fill s.fb c) hb hv

/-- A shape is a refreshing effect (R140). -/
theorem CommandEffect.shape (s : State) {i : Instr} (cells : List Coord) (c : Color) (hb : i ≠ .begin)
    (hv : ∀ v, i ≠ .setBright v) : CommandEffect s i ((s.shape cells c).respond 0) :=
  .refreshing (s.fb.plotAll cells c) (Memory.wf_plotAll cells c s.fb) hb hv

/-- Every command completes with one of the effects (R200). -/
theorem exec_completes (i : Instr) (s : State) : ∃ t, exec i s = .next t ∧ CommandEffect s i t :=
  match i with
  | .begin => ⟨_, exec_begin s, .begin⟩
  | .update => ⟨_, exec_update s, .refreshing s.fb id nofun nofun⟩
  | .setBright v => ⟨_, exec_setBright v s, .setBright v⟩
  | .getBright => ⟨_, exec_getBright s, .silent s.fb _ id (zextByte_top s.bright) nofun nofun⟩
  | .setPixel x y c => ⟨_, exec_setPixel x y c s,
      .silent (s.fb.plot x y c) 0 (Memory.wf_plot s.fb x y c) (by decide) nofun nofun⟩
  | .getPixel x y => ⟨_, exec_getPixel x y s, .silent s.fb _ id (getPixel_answer_top s x y) nofun nofun⟩
  | .clear => ⟨_, exec_clear s, .fillAll s black nofun nofun⟩
  | .clearColor c => ⟨_, exec_clearColor c s, .fillAll s c nofun nofun⟩
  | .fillColor c => ⟨_, exec_fillColor c s, .fillAll s c nofun nofun⟩
  | .drawHLine x y n c => ⟨_, exec_drawHLine x y n c s, .shape s _ c nofun nofun⟩
  | .drawVLine x y n c => ⟨_, exec_drawVLine x y n c s, .shape s _ c nofun nofun⟩
  | .drawRect x y w h c => ⟨_, exec_drawRect x y w h c s, .shape s _ c nofun nofun⟩
  | .fillRect x y w h c => ⟨_, exec_fillRect x y w h c s, .shape s _ c nofun nofun⟩
  | .drawCircle x y r c => ⟨_, exec_drawCircle x y r c s, .shape s _ c nofun nofun⟩
  | .fillCircle x y r c => ⟨_, exec_fillCircle x y r c s, .shape s _ c nofun nofun⟩

/-- The effect of a command, from its outcome. -/
theorem exec_effect {i : Instr} {s t : State} (h : exec i s = .next t) : CommandEffect s i t := by
  obtain ⟨u, hu, he⟩ := exec_completes i s
  obtain rfl : u = t := Host.Outcome.next.inj (hu.symm.trans h)
  exact he

/-- A step that answers a next state either held an idle block (log entry 3) or ran the command on the port (R71). -/
theorem step_cases {s t : State} (h : step s = .next t) :
    (s.pending = none ∧ t = s) ∨
      ∃ w i, s.pending = some w ∧ decode w = .ok i ∧ exec i s.takeCommand = .next t := by
  rw [step, runPending] at h
  split at h
  · next w hp =>
    rw [runCommand] at h
    split at h
    · next i hd => exact .inr ⟨w, i, hp, hd, h⟩
    · cases h
  · next hp => exact .inl ⟨hp, (Host.Outcome.next.inj h).symm⟩

/-! ## The invariant through the operations -/

/-- The part of the invariant that a refresh starts from: a refresh writes every channel and its command answers, so the clauses
on the channels and on RESP are not needed before it. -/
structure RefreshReady (s : State) : Prop where
  fb_wf : s.fb.wf = true
  configured_together : s.pinsCfg = s.pwmCfg
  latched_freq : s.pwmFreq = if s.pwmCfg then some Config.pwmFrequency else none
  latched_res : s.pwmRes = if s.pwmCfg then some Config.pwmResolution else none
  frame_ids : ∀ f ∈ s.log, f.writes.map Prod.fst = List.finRange 192
  frame_order : s.log.Pairwise (fun f g => f.cfg = true → g.cfg = true)
  frames_unbegun : s.begun = false → ∀ f ∈ s.log, f.cfg = false

theorem Inv.refreshReady {s : State} (h : Inv s) : RefreshReady s := { h with }

theorem RefreshReady.withFb {s : State} (h : RefreshReady s) {m : Memory} (hm : m.wf = true) :
    RefreshReady { s with fb := m } := { h with fb_wf := hm }

/-- BEGIN's setup latches the constants and makes the block Begun (R80, R180, R181). -/
theorem RefreshReady.configure {s : State} (h : RefreshReady s) :
    RefreshReady (s.configurePins.configurePwm Config.pwmFrequency Config.pwmResolution) where
  fb_wf := h.fb_wf
  configured_together := rfl
  latched_freq := rfl
  latched_res := rfl
  frame_ids := h.frame_ids
  frame_order := h.frame_order
  frames_unbegun := nofun

/-- While the block is Begun, a refresh leaves in the channels the writes that it records (R185). -/
theorem refresh_get_of_begun {s : State} (hb : s.begun = true) :
    ∀ w ∈ rasterWrites s.fb s.bright, s.refresh.ch.get w.1 = some w.2 := by
  intro w hw
  rw [rasterWrites_eq] at hw
  obtain ⟨i, -, rfl⟩ := List.mem_map.1 hw
  exact (refresh_get s i).trans (if_pos hb)

/-- The frame of a refresh keeps the order of the trace: a Begun frame is followed by Begun frames alone (R27). -/
theorem RefreshReady.frame_order_refresh {s : State} (h : RefreshReady s) :
    s.refresh.log.Pairwise (fun f g => f.cfg = true → g.cfg = true) := by
  rw [State.refresh_log, List.pairwise_append]
  refine ⟨h.frame_order, List.pairwise_singleton _ _, fun f hf g hg hcfg => ?_⟩
  rw [List.mem_singleton.1 hg]
  cases hb : s.begun with
  | true => rfl
  | false => simp [h.frames_unbegun hb f hf] at hcfg

/-- A refresh and the answer after it establish the whole invariant. -/
theorem RefreshReady.refresh_respond {s : State} (h : RefreshReady s) {r : RespWord} (hr : r.extractLsb' 24 8 = 0#8) :
    Inv (s.refresh.respond r) where
  fb_wf := by simpa using h.fb_wf
  configured_together := by simpa using h.configured_together
  latched_freq := by simpa using h.latched_freq
  latched_res := by simpa using h.latched_res
  frame_ids := by
    simp only [State.respond_log, State.refresh_log, List.forall_mem_append, List.forall_mem_singleton]
    exact ⟨h.frame_ids, rasterWrites_ids _ _⟩
  frame_order := h.frame_order_refresh
  frames_unbegun := by
    simp only [State.respond_begun, State.refresh_begun, State.respond_log, State.refresh_log, List.forall_mem_append,
      List.forall_mem_singleton]
    exact fun hb => ⟨h.frames_unbegun hb, hb⟩
  channels_unbegun := by
    simp only [State.respond_begun, State.refresh_begun, State.respond_ch, refresh_get]
    intro hb i
    rw [hb, if_neg Bool.false_ne_true]
  channels_begun := by
    simp only [State.respond_begun, State.refresh_begun, State.respond_log, State.refresh_log, State.respond_ch]
    exact fun hb => ⟨_, List.getLast?_concat, hb, refresh_get_of_begun hb⟩
  resp_top := by rintro _ ⟨⟩; exact hr
  resp_first := nofun

/-- An answer keeps the invariant when its top byte is zero (R67). -/
theorem Inv.respond {s : State} (h : Inv s) {r : RespWord} (hr : r.extractLsb' 24 8 = 0#8) : Inv (s.respond r) :=
  { h with
    resp_top := by rintro _ ⟨⟩; exact hr
    resp_first := nofun }

theorem Inv.withFb {s : State} (h : Inv s) {m : Memory} (hm : m.wf = true) : Inv { s with fb := m } :=
  { h with fb_wf := hm }

theorem Inv.setBrightness {s : State} (h : Inv s) (v : Byte) : Inv (s.setBrightness v) := { h with }

theorem Inv.takeCommand {s : State} (h : Inv s) : Inv s.takeCommand := { h with }

/-- Every effect of a command keeps the invariant. -/
theorem CommandEffect.keeps_inv {i : Instr} {s t : State} (he : CommandEffect s i t) (h : Inv s) : Inv t := by
  cases he with
  | begin => exact (h.refreshReady.configure.withFb (Memory.wf_fill _ black h.fb_wf)).refresh_respond (by decide)
  | setBright v => exact (h.setBrightness v).respond (by decide)
  | silent m r hm hr => exact (h.withFb (hm h.fb_wf)).respond hr
  | refreshing m hm => exact (h.refreshReady.withFb (hm h.fb_wf)).refresh_respond (by decide)

end Sys2Proof.Machine
end

section
namespace Sys2Proof.Proofs
open Sys2Proof Sys2Proof.Machine

/-! ## The state -/

/-- Settles O18: an idle step holds the state; otherwise the step takes the word off the port, which the invariant does not
speak of, and each effect a command can have keeps the invariant. -/
theorem stepKeepsInvariant : Obligations.StepKeepsInvariant := by
  intro s t hinv hstep
  rcases step_cases hstep with ⟨-, rfl⟩ | ⟨w, i, -, -, hexec⟩
  · exact hinv
  · exact (exec_effect hexec).keeps_inv hinv.takeCommand

/-- Settles O28 by the effects of a command: of BEGIN, a silent and a refreshing command, none touches BRIGHT (R21, R80). -/
theorem onlySetBrightWritesBrightness : Obligations.OnlySetBrightWritesBrightness := by
  intro i s t h
  cases exec_effect h with
  | begin => exact .inr ⟨nofun, by simp⟩
  | setBright v => exact .inl ⟨v, rfl, by simp⟩
  | silent m r _ _ _ hv => exact .inr ⟨hv, by simp⟩
  | refreshing m _ _ hv => exact .inr ⟨hv, by simp⟩

/-- Settles O56 by the effects of a command: BEGIN leaves the block Begun, and no other effect touches the configuration (R23,
R24). -/
theorem onlyBeginConfigures : Obligations.OnlyBeginConfigures := by
  intro i s t h
  cases exec_effect h with
  | begin => exact ⟨fun hb => absurd rfl hb, fun _ => by simp [State.begun]⟩
  | setBright v => simp
  | silent m r => simp [State.begun]
  | refreshing m => simp [State.begun]

/-- Settles O16: RESP is ⊥ at reset (R26), and the last thing every effect does is to answer (R67). -/
theorem responseReadFaultsOnlyAtFirst : Obligations.ResponseReadFaultsOnlyAtFirst := by
  refine ⟨rfl, fun i s t h => ?_⟩
  have hresp : ∃ v, t.resp = some v := by
    cases exec_effect h <;> exact ⟨_, State.respond_resp _ _⟩
  obtain ⟨v, hv⟩ := hresp
  exact ⟨v, hv, by simp [hostReadResponse, hv]⟩

/-- Settles O17: at reset the trace is empty, every channel and latch is ⊥ and RESP is ⊥ (R220). -/
theorem resetMeetsInvariant : Obligations.ResetMeetsInvariant where
  fb_wf := reset_fb_wf
  configured_together := rfl
  latched_freq := rfl
  latched_res := rfl
  frame_ids := nofun
  frame_order := List.Pairwise.nil
  frames_unbegun _ := nofun
  channels_unbegun _ i := by simp [State.reset, Vector.get_eq_getElem]
  channels_begun := nofun
  resp_top := nofun
  resp_first _ := rfl

end Sys2Proof.Proofs
end

section
namespace Sys2Proof.Machine

/-! ## The invariant along a stream -/

/-- A refused word changes only the refusal mark and the port, which the invariant does not speak of (R202). -/
theorem Inv.refuse {s : State} (h : Inv s) : Inv s.refuse := { h with }

theorem Inv.withCommand {s : State} (h : Inv s) (w : CmdWord) : Inv (s.withCommand w) := { h with }

/-- The state after a step keeps the invariant, whatever the step's outcome. -/
theorem afterStep_keeps_inv {s : State} (h : Inv s) : Inv (afterStep s) := by
  unfold afterStep
  split
  · next t ht => exact Proofs.stepKeepsInvariant s t h ht
  · exact h.refuse
  · exact h

/-- So does the host's next word, after the step of a word that is still on the port. -/
theorem afterCommand_keeps_inv {s : State} (h : Inv s) (w : CmdWord) : Inv (afterCommand s w) :=
  afterStep_keeps_inv ((afterStep_keeps_inv h).withCommand w)

end Sys2Proof.Machine
end

section
namespace Sys2Proof

/-! ## Words as bytes (R43) -/

/-- The lowest `k` bytes of a word, the most significant first. -/
def lowBytes {n : Nat} (w : BitVec n) : Nat → List Byte
  | 0 => []
  | k + 1 => w.extractLsb' (8 * k) 8 :: lowBytes w k

/-- Reading one more byte in base 256: the word from bit `k + 8` up, then its byte at `k`, is the word from bit `k` up. -/
theorem base256_step {n : Nat} (w : BitVec n) (k : Nat) :
    256 * (w.toNat / 2 ^ (k + 8)) + (w.extractLsb' k 8).toNat = w.toNat / 2 ^ k := by
  rw [BitVec.extractLsb'_toNat, Nat.shiftRight_eq_div_pow, Nat.pow_add, ← Nat.div_div_eq_div_mul]
  exact Nat.div_add_mod _ 256

/-- Reading the lowest `k` bytes after the bits above them gives the word. -/
theorem foldl_lowBytes {n : Nat} (w : BitVec n) (k : Nat) :
    (lowBytes w k).foldl (fun m b => 256 * m + b.toNat) (w.toNat / 2 ^ (8 * k)) = w.toNat := by
  induction k with
  | zero => exact Nat.div_one _
  | succ k ih => rw [lowBytes, List.foldl_cons, Nat.mul_succ, base256_step, ih]

/-- As many bytes as cover a word, read in base 256, are the word. -/
theorem base256_lowBytes {n : Nat} (w : BitVec n) {k : Nat} (h : n ≤ 8 * k) :
    (lowBytes w k).foldl (fun m b => 256 * m + b.toNat) 0 = w.toNat := by
  have hpow : w.toNat < 2 ^ (8 * k) := w.isLt.trans_le (Nat.pow_le_pow_right (by decide) h)
  simpa only [Nat.div_eq_of_lt hpow] using foldl_lowBytes w k

/-- A command word's bytes are its eight lowest. -/
theorem base256_cmdBytes (w : CmdWord) : (cmdBytes w).foldl (fun m b => 256 * m + b.toNat) 0 = w.toNat :=
  base256_lowBytes w (k := 8) le_rfl

/-- A response word's bytes are its four lowest. -/
theorem base256_respBytes (r : RespWord) : (respBytes r).foldl (fun m b => 256 * m + b.toNat) 0 = r.toNat :=
  base256_lowBytes r (k := 4) le_rfl

/-- Appending a byte is one step of reading in base 256. -/
theorem append_byte_toNat {n : Nat} (v : BitVec n) (b : Byte) : (v ++ b).toNat = 256 * v.toNat + b.toNat := by
  rw [BitVec.toNat_append, ← Nat.shiftLeft_add_eq_or_of_lt b.isLt, Nat.shiftLeft_eq, Nat.mul_comm]

/-- Taking a word off a stream undoes sending it: the word taken is the number its eight bytes spell. -/
theorem takeWord_cmdBytes (w : CmdWord) (rest : List Byte) : takeWord (cmdBytes w ++ rest) = some (w, rest) := by
  refine congrArg (fun v => some (v, rest)) (BitVec.eq_of_toNat_eq ?_)
  simpa only [append_byte_toNat, cmdBytes, List.foldl_cons, List.foldl_nil, Nat.mul_zero, Nat.zero_add] using
    base256_cmdBytes w

end Sys2Proof
end

section
namespace Sys2Proof.Proofs
open Sys2Proof Sys2Proof.Machine

/-! ## The memory model (20_memory.md) -/

/-- Settles O19 by induction on the words: each one's delivery and steps keep the invariant. -/
theorem streamKeepsInvariant : Obligations.StreamKeepsInvariant := by
  intro ws
  induction ws with
  | nil => exact fun s h => h
  | cons w ws ih => exact fun s h => ih (afterCommand s w) (afterCommand_keeps_inv h w)

/-- Settles O8: the bytes of a word, as many as cover it, spell it in base 256, and so does the word taken off a stream (R43). -/
theorem byteSerialMostSignificantFirst : Obligations.ByteSerialMostSignificantFirst :=
  ⟨fun w rest => ⟨takeWord_cmdBytes w rest, rfl, base256_cmdBytes w⟩, fun r => ⟨rfl, base256_respBytes r⟩⟩

/-- Settles O24: SETPIXEL changes the cell of its own coordinate alone (R10), and two in-range coordinates name one cell only
when they are the same. -/
theorem getPixelSeesEarlierSetPixel : Obligations.GetPixelSeesEarlierSetPixel := by
  intro x y u v c s hxy huv
  refine ⟨_, _, exec_setPixel x y c s, exec_getPixel u v _, ?_⟩
  have hread : (s.fb.plot x y c).read (idx u v) = if u = x ∧ v = y then c else s.readCell (idx u v) := by
    rw [Memory.read_plot]
    exact if_congr ((and_iff_right hxy).trans (idx_inj huv hxy)) rfl rfl
  rw [State.respond_resp, if_pos huv, State.respond_readCell, State.plot_readCell, hread]
  split <;> rfl

/-- Settles O33: a refresh changes neither FB nor BRIGHT (R113), and its writes are a function of these two. -/
theorem repeatedUpdateRepeatsWrites : Obligations.RepeatedUpdateRepeatsWrites := by
  intro s
  refine ⟨_, _, ⟨s.begun, rasterWrites s.fb s.bright⟩, ⟨s.begun, rasterWrites s.fb s.bright⟩,
    exec_update s, exec_update _, ?_, rfl⟩
  simp

end Sys2Proof.Proofs
end

section
namespace Sys2Proof

/-! ## The rows of the opcode table, field by field (R62, R63) -/

/-- A field's bits in a row's mask: none where the command uses the field, and all of them where it must be zero (R62). -/
def unusedBits (used : Bool) (n : Nat) : BitVec n := if used then 0 else BitVec.allOnes n

/-- Such a mask tests a field for zero exactly where the command does not use it. -/
theorem and_unusedBits_eq_zero {n : Nat} (used : Bool) (f : BitVec n) :
    f &&& unusedBits used n = 0 ↔ (used || f == 0) = true := by
  cases used <;> simp [unusedBits]

/-- The match of a row: its opcode byte, and zero in every field. -/
theorem pattern_eq_packFields : ∀ r ∈ opRows, r.pattern = packFields (opcodeByte r.opcode) 0 0 0 0 0 := by decide

/-- The mask of a row: the whole opcode byte, and every field that R62 does not list. -/
theorem mask_eq_packFields : ∀ r ∈ opRows, r.mask =
    packFields (BitVec.allOnes 8) (unusedBits (fieldUse r.opcode).x 8) (unusedBits (fieldUse r.opcode).y 8)
      (unusedBits (fieldUse r.opcode).p 8) (unusedBits (fieldUse r.opcode).q 8) (unusedBits (fieldUse r.opcode).color 24) := by
  decide

/-- A word meets a row's mask and match exactly when it has the row's opcode and zeros in the unused fields. -/
theorem masked_eq_pattern_iff {r : OpRow} (hr : r ∈ opRows) (w : CmdWord) :
    w &&& r.mask = r.pattern ↔ opField w = opcodeByte r.opcode ∧ sbzZero r.opcode w = true := by
  rw [masked_eq_iff, mask_eq_packFields r hr, pattern_eq_packFields r hr]
  simp only [opField_packFields, xField_packFields, yField_packFields, pField_packFields, qField_packFields,
    colorField_packFields, BitVec.and_allOnes, and_unusedBits_eq_zero, sbzZero, Bool.and_eq_true, and_assoc]

theorem OpRow.matchesWord_iff {r : OpRow} (hr : r ∈ opRows) (w : CmdWord) :
    r.matchesWord w = true ↔ opField w = opcodeByte r.opcode ∧ sbzZero r.opcode w = true :=
  beq_iff_eq.trans (masked_eq_pattern_iff hr w)

/-- The opcode bytes of the table's rows are distinct (R63). -/
theorem opcodeByte_nodup : (opRows.map fun r => opcodeByte r.opcode).Nodup := by decide

/-- So a row is known by its opcode byte. -/
theorem row_eq_of_opcodeByte {r q : OpRow} (hr : r ∈ opRows) (hq : q ∈ opRows)
    (h : opcodeByte r.opcode = opcodeByte q.opcode) : r = q :=
  List.inj_on_of_nodup_map opcodeByte_nodup hr hq h

/-- Every opcode has a row. -/
theorem exists_row (op : Opcode) : ∃ r ∈ opRows, r.opcode = op := by
  cases op <;> decide

theorem opcodeByte_injective {a b : Opcode} (h : opcodeByte a = opcodeByte b) : a = b := by
  obtain ⟨r, hr, rfl⟩ := exists_row a
  obtain ⟨q, hq, rfl⟩ := exists_row b
  rw [row_eq_of_opcodeByte hr hq h]

/-! ## What the decoder answers (R65, R66, R71) -/

/-- The row that the decoder finds is one that the word meets. -/
theorem fields_of_find?_matchesWord {w : CmdWord} {r : OpRow} (h : opRows.find? (fun r => r.matchesWord w) = some r) :
    opField w = opcodeByte r.opcode ∧ sbzZero r.opcode w = true :=
  (OpRow.matchesWord_iff (List.mem_of_find?_eq_some h) w).1 (List.find?_some (p := fun r : OpRow => r.matchesWord w) h)

/-- A word with a known opcode and zeros in the unused fields is that opcode's command, on the word's operands. -/
theorem decode_of_fields {w : CmdWord} {op : Opcode} (hop : opField w = opcodeByte op) (hz : sbzZero op w = true) :
    decode w = .ok (operandsOf op w) := by
  obtain ⟨r, hr, rfl⟩ := exists_row op
  have hsome : (opRows.find? (fun r => r.matchesWord w)).isSome :=
    List.find?_isSome.2 ⟨r, hr, (OpRow.matchesWord_iff hr w).2 ⟨hop, hz⟩⟩
  obtain ⟨q, hq⟩ := Option.isSome_iff_exists.1 hsome
  have hqr : q.opcode = r.opcode := opcodeByte_injective ((fields_of_find?_matchesWord hq).1.symm.trans hop)
  simp only [decode, hq, hqr]

/-- A word decodes only by its opcode and zeros in the unused fields. -/
theorem decode_ok_cases {w : CmdWord} {i : Instr} (h : decode w = .ok i) :
    ∃ op, opField w = opcodeByte op ∧ sbzZero op w = true ∧ i = operandsOf op w := by
  rw [decode] at h
  split at h
  · next r hr =>
    obtain ⟨hop, hz⟩ := fields_of_find?_matchesWord hr
    exact ⟨r.opcode, hop, hz, (Except.ok.inj h).symm⟩
  · split at h <;> cases h

theorem knownOpcode_iff (b : Byte) : knownOpcode b = true ↔ ∃ op, b = opcodeByte op := by
  rw [knownOpcode, List.any_eq_true]
  constructor
  · rintro ⟨r, -, h⟩
    exact ⟨r.opcode, (beq_iff_eq.1 h).symm⟩
  · rintro ⟨op, rfl⟩
    obtain ⟨r, hr, rfl⟩ := exists_row op
    exact ⟨r, hr, beq_self_eq_true _⟩

/-- A word that matches no row is refused, by what its opcode is. -/
theorem decode_of_no_match {w : CmdWord} (h : ∀ op, opField w = opcodeByte op → sbzZero op w = false) :
    decode w = if knownOpcode (opField w) then .error .nonzeroSbz else .error .reservedOpcode := by
  have hnone : opRows.find? (fun r => r.matchesWord w) = none :=
    List.find?_eq_none.2 fun r hr hm => by
      obtain ⟨hop, hz⟩ := (OpRow.matchesWord_iff hr w).1 hm
      exact Bool.false_ne_true ((h r.opcode hop).symm.trans hz)
  rw [decode, hnone]

/-- A word with no known opcode is refused as such, whatever its other bits (R65). -/
theorem decode_reservedOpcode {w : CmdWord} (h : ∀ op, opField w ≠ opcodeByte op) : decode w = .error .reservedOpcode := by
  rw [decode_of_no_match fun op hop => absurd hop (h op), if_neg]
  rw [knownOpcode_iff]
  exact fun ⟨op, hop⟩ => h op hop

/-- A known opcode with a nonzero unused field is refused as such (R66). -/
theorem decode_nonzeroSbz {w : CmdWord} {op : Opcode} (hop : opField w = opcodeByte op) (hz : sbzZero op w = false) :
    decode w = .error .nonzeroSbz := by
  rw [decode_of_no_match, if_pos ((knownOpcode_iff _).2 ⟨op, hop⟩)]
  intro op' hop'
  rwa [opcodeByte_injective (hop'.symm.trans hop)]

/-! ## Operands and words, there and back (R60, R61) -/

/-- An encoded command carries its opcode byte, and zeros in the fields it does not use. -/
theorem encodedOpcode : ∀ i : Instr, Laws.EncodedOpcode.Statement i
  | .begin => Laws.EncodedOpcode.begin
  | .update => Laws.EncodedOpcode.update
  | .setBright v => Laws.EncodedOpcode.setBright v
  | .getBright => Laws.EncodedOpcode.getBright
  | .setPixel x y c => Laws.EncodedOpcode.setPixel x y c
  | .getPixel x y => Laws.EncodedOpcode.getPixel x y
  | .clear => Laws.EncodedOpcode.clear
  | .clearColor c => Laws.EncodedOpcode.clearColor c
  | .fillColor c => Laws.EncodedOpcode.fillColor c
  | .drawHLine x y n c => Laws.EncodedOpcode.drawHLine x y n c
  | .drawVLine x y n c => Laws.EncodedOpcode.drawVLine x y n c
  | .drawRect x y w h c => Laws.EncodedOpcode.drawRect x y w h c
  | .fillRect x y w h c => Laws.EncodedOpcode.fillRect x y w h c
  | .drawCircle x y r c => Laws.EncodedOpcode.drawCircle x y r c
  | .fillCircle x y r c => Laws.EncodedOpcode.fillCircle x y r c

/-- The operands of a well-formed command are read back from its word. -/
theorem operandsOf_encode {i : Instr} (h : WellFormed i) : operandsOf i.opcode (encode i) = i := by
  cases i <;> simp_all [operandsOf, encode, Instr.opcode, FitsByte, sext8_byteOf]

/-- The operands that a word spells fit their fields. -/
theorem wellFormed_operandsOf (op : Opcode) (w : CmdWord) : WellFormed (operandsOf op w) :=
  have hx := fitsByte_sext8 (xField w)
  have hy := fitsByte_sext8 (yField w)
  have hp := fitsByte_sext8 (pField w)
  have hq := fitsByte_sext8 (qField w)
  match op with
  | .begin | .update | .getBright | .clear => trivial
  | .setBright | .clearColor | .fillColor => trivial
  | .setPixel | .getPixel => ⟨hx, hy⟩
  | .drawHLine | .drawVLine | .drawCircle | .fillCircle => ⟨hx, hy, hp⟩
  | .drawRect | .fillRect => ⟨hx, hy, hp, hq⟩

/-- Encoding a word's own operands keeps the fields the command uses and puts zeros into the others. -/
theorem encode_operandsOf (op : Opcode) (w : CmdWord) :
    encode (operandsOf op w) = packFields (opcodeByte op)
      (if (fieldUse op).x then xField w else 0) (if (fieldUse op).y then yField w else 0)
      (if (fieldUse op).p then pField w else 0) (if (fieldUse op).q then qField w else 0)
      (if (fieldUse op).color then colorField w else 0) := by
  cases op <;> simp [encode, operandsOf, Instr.opcode, fieldUse, byteOf_sext8]

/-- A field that is zero where it is unused is kept. -/
theorem used_field_eq {n : Nat} {used : Bool} {f : BitVec n} (h : (used || f == 0) = true) :
    (if used then f else 0) = f := by
  cases used <;> simp_all

/-- So a word with zeros in the unused fields is the encoding of its operands. -/
theorem encode_operandsOf_eq {op : Opcode} {w : CmdWord} (hop : opField w = opcodeByte op) (hz : sbzZero op w = true) :
    encode (operandsOf op w) = w := by
  simp only [sbzZero, Bool.and_eq_true] at hz
  obtain ⟨⟨⟨⟨hx, hy⟩, hp⟩, hq⟩, hc⟩ := hz
  rw [encode_operandsOf, used_field_eq hx, used_field_eq hy, used_field_eq hp, used_field_eq hq, used_field_eq hc, ← hop,
    packFields_fields]

end Sys2Proof
end

section
namespace Sys2Proof.Proofs
open Sys2Proof Sys2Proof.Machine

/-! ## Command words (30_encoding.md) -/

/-- Settles O1: eleven closed words, decoded (R73). -/
theorem workedEncodingsDecode : Obligations.WorkedEncodingsDecode := by
  unfold Obligations.WorkedEncodingsDecode
  decide

/-- Settles O2: an encoded command has its own opcode and zeros in the unused fields, so it decodes to its operands, and those
that fit their fields are read back. -/
theorem decodeOfEncode : Obligations.DecodeOfEncode := by
  intro i hi
  obtain ⟨hop, hz⟩ := encodedOpcode i
  rw [decode_of_fields hop hz, operandsOf_encode hi]

/-- Settles O3: a word that decodes has a row's opcode and zeros in the unused fields, so encoding its operands gives each of
its fields again. -/
theorem encodeOfDecode : Obligations.EncodeOfDecode := by
  intro w i h
  obtain ⟨op, hop, hz, rfl⟩ := decode_ok_cases h
  exact ⟨wellFormed_operandsOf op w, encode_operandsOf_eq hop hz⟩

/-- Settles O4: each row's mask and match, read field by field (R62, R63). -/
theorem maskCoversOpcodeAndUnusedFields : Obligations.MaskCoversOpcodeAndUnusedFields :=
  fun _ hr w => masked_eq_pattern_iff hr w

/-- Settles O5: a word that matches a row carries the row's opcode byte, and no two rows share one. -/
theorem atMostOneRowMatches : Obligations.AtMostOneRowMatches := by
  intro r₁ h₁ r₂ h₂ w hm₁ hm₂
  have hop₁ := ((masked_eq_pattern_iff h₁ w).1 hm₁).1
  have hop₂ := ((masked_eq_pattern_iff h₂ w).1 hm₂).1
  exact row_eq_of_opcodeByte h₁ h₂ (hop₁.symm.trans hop₂)

end Sys2Proof.Proofs
end

section
namespace Sys2Proof

/-! ## Words that no row matches (R65, R66) -/

/-- The ranges that R65 reserves hold no opcode byte. -/
theorem ne_opcodeByte_of_reserved {b : Byte}
    (h : b.toNat = 0 ∨ (0x05 ≤ b.toNat ∧ b.toNat ≤ 0x0F) ∨ (0x12 ≤ b.toNat ∧ b.toNat ≤ 0x1F) ∨
      (0x23 ≤ b.toNat ∧ b.toNat ≤ 0x2F) ∨ 0x36 ≤ b.toNat) (op : Opcode) : b ≠ opcodeByte op := by
  rintro rfl
  revert h
  cases op <;> decide

/-- A nonzero field that the command does not use breaks R66's rule. -/
theorem sbzZero_eq_false {op : Opcode} {w : CmdWord}
    (h : ((fieldUse op).x = false ∧ xField w ≠ 0#8) ∨ ((fieldUse op).y = false ∧ yField w ≠ 0#8) ∨
      ((fieldUse op).p = false ∧ pField w ≠ 0#8) ∨ ((fieldUse op).q = false ∧ qField w ≠ 0#8) ∨
      ((fieldUse op).color = false ∧ colorField w ≠ 0#24)) : sbzZero op w = false := by
  rcases h with ⟨hu, hf⟩ | ⟨hu, hf⟩ | ⟨hu, hf⟩ | ⟨hu, hf⟩ | ⟨hu, hf⟩ <;> simp [sbzZero, hu, hf]

end Sys2Proof
end

section
namespace Sys2Proof.Machine

/-! ## The step, by what the port's word decodes to (R71) -/

/-- A word that decodes runs its command, on the state whose port is free again. -/
theorem step_command {s : State} {w : CmdWord} {i : Instr} (hp : s.pending = some w) (hd : decode w = .ok i) :
    step s = exec i s.takeCommand := by
  simp only [step, runPending, runCommand, hp, hd]

/-- A word that does not decode is refused by name. -/
theorem step_refused {s : State} {w : CmdWord} {r : DecodeRefusal} (hp : s.pending = some w) (hd : decode w = .error r) :
    step s = .refused (refusalOf r) := by
  simp only [step, runPending, runCommand, hp, hd]

/-- After any refused step the state is the refused word's (R202). -/
theorem afterStep_of_refused {s : State} {r : Refusal} (h : step s = .refused r) : afterStep s = s.refuse := by
  simp only [afterStep, h]

/-- A refused word sets the mark, frees the port and changes nothing else. -/
theorem afterStep_refused_eq {s : State} {r : Refusal} (h : step s = .refused r) :
    afterStep s = { s with refusalMark := true, pending := (afterStep s).pending } := by
  rw [afterStep_of_refused h]; rfl

/-- After any step the port is free (R71, R226). -/
theorem afterStep_pending (s : State) : (afterStep s).pending = none := by
  cases hp : s.pending with
  | none => rw [afterStep_idle hp, hp]
  | some w =>
    cases hd : decode w with
    | error r => rw [afterStep_refused hp hd, State.refuse_pending]
    | ok i =>
      obtain ⟨t, ht, -⟩ := exec_completes i s.takeCommand
      rw [afterStep_command hp hd ht, exec_pending ht, State.takeCommand_pending]

/-! ## The answer of each command (R67) -/

/-- What a command answers: GETPIXEL its cell, or 0 out of range, GETBRIGHT the brightness, BEGIN 1, and every other command 0. -/
def response (s : State) : Instr → RespWord
  | .getPixel x y => if InRange x y then zextColor (s.readCell (idx x y)) else 0
  | .getBright => zextByte s.bright
  | .begin => 1
  | _ => 0

/-- The last thing every command does is to answer. -/
theorem exec_respond (s : State) : ∀ i : Instr, ∃ u : State, exec i s = .next (u.respond (response s i))
  | .begin => ⟨_, exec_begin s⟩
  | .update => ⟨_, exec_update s⟩
  | .setBright v => ⟨_, exec_setBright v s⟩
  | .getBright => ⟨_, exec_getBright s⟩
  | .setPixel x y c => ⟨_, exec_setPixel x y c s⟩
  | .getPixel x y => ⟨_, exec_getPixel x y s⟩
  | .clear => ⟨_, exec_clear s⟩
  | .clearColor c => ⟨_, exec_clearColor c s⟩
  | .fillColor c => ⟨_, exec_fillColor c s⟩
  | .drawHLine x y n c => ⟨_, exec_drawHLine x y n c s⟩
  | .drawVLine x y n c => ⟨_, exec_drawVLine x y n c s⟩
  | .drawRect x y w h c => ⟨_, exec_drawRect x y w h c s⟩
  | .fillRect x y w h c => ⟨_, exec_fillRect x y w h c s⟩
  | .drawCircle x y r c => ⟨_, exec_drawCircle x y r c s⟩
  | .fillCircle x y r c => ⟨_, exec_fillCircle x y r c s⟩

theorem exec_resp {i : Instr} {s t : State} (h : exec i s = .next t) : t.resp = some (response s i) := by
  obtain ⟨u, hu⟩ := exec_respond s i
  obtain rfl : u.respond (response s i) = t := Host.Outcome.next.inj (hu.symm.trans h)
  exact State.respond_resp u _

/-! ## The host's delivery (R226) -/

theorem deliver_of_free {s : State} (h : s.pending = none) (w : CmdWord) : deliver w s = some (s.withCommand w) :=
  if_pos h

theorem deliver_of_busy {s : State} (h : s.pending ≠ none) (w : CmdWord) : deliver w s = none :=
  if_neg h

end Sys2Proof.Machine
end

section
namespace Sys2Proof.Proofs
open Sys2Proof Sys2Proof.Machine

/-! ## The step -/

/-- Settles O6: R65's ranges hold no opcode of the table, so the word is refused as reserved, and a refusal sets the
mark alone. -/
theorem reservedOpcodeRefused : Obligations.ReservedOpcodeRefused := by
  intro s w hp hop
  have hstep : step s = .refused .reservedOpcode :=
    step_refused hp (decode_reservedOpcode (ne_opcodeByte_of_reserved hop))
  exact ⟨hstep, afterStep_refused_eq hstep⟩

/-- Settles O7: with a known opcode and a nonzero unused field the word is refused as such, and a refusal sets the mark alone. -/
theorem nonzeroSbzRefused : Obligations.NonzeroSbzRefused := by
  intro s w op hp hop hfield
  have hstep : step s = .refused .nonzeroSbz :=
    step_refused hp (decode_nonzeroSbz hop (sbzZero_eq_false hfield))
  exact ⟨hstep, afterStep_refused_eq hstep⟩

/-- Settles O12: the host can deliver to a free port alone, and every step leaves the port free (R226). -/
theorem deliverNeedsFreePort : Obligations.DeliverNeedsFreePort := fun s w =>
  ⟨fun hbusy => deliver_of_busy hbusy w, fun hfree => deliver_of_free hfree w,
    (afterStep s).withCommand w, deliver_of_free (afterStep_pending s) w, rfl⟩

/-- Settles O13: every command ends in its answer, R67's for it, and a refused word leaves RESP as it was. -/
theorem responseOfEachCommand : Obligations.ResponseOfEachCommand := by
  refine ⟨fun i s t h => ?_, fun s r h => ?_⟩
  · rw [exec_resp h]
    cases i <;> rfl
  · rw [afterStep_of_refused h, State.refuse_resp]

/-- Settles O9: the step of a word that decodes is its command's, on the state whose port is free again (R71). -/
theorem stepRunsDecodedCommand : Obligations.StepRunsDecodedCommand :=
  fun _ _ _ hp hd => step_command hp hd

end Sys2Proof.Proofs
end

section
namespace Sys2Proof.Machine

/-! ## The assembler (R69, R72, R175) -/

theorem fitted_of_wellFormed {i : Instr} (h : WellFormed i) : fitted i = some i := if_pos ((wellFormed_iff i).2 h)

theorem fitted_of_not_wellFormed {i : Instr} (h : ¬ WellFormed i) : fitted i = none := if_neg (mt (wellFormed_iff i).1 h)

/-- What the check on the fields lets through fits its fields. -/
theorem wellFormed_of_fitted {i j : Instr} (h : fitted i = some j) : WellFormed j := by
  by_cases hi : WellFormed i
  · rw [fitted_of_wellFormed hi] at h
    cases h
    exact hi
  · rw [fitted_of_not_wellFormed hi] at h
    cases h

theorem wellFormed_of_mapM_fitted {is js : List Instr} (h : is.mapM fitted = some js) : ∀ j ∈ js, WellFormed j := by
  induction is generalizing js with
  | nil => cases h; exact List.forall_mem_nil _
  | cons i is ih =>
    simp only [List.mapM_cons, Option.bind_eq_bind, Option.bind_eq_some_iff, Option.pure_def, Option.some.injEq] at h
    obtain ⟨j, hj, ks, hks, rfl⟩ := h
    exact List.forall_mem_cons.2 ⟨wellFormed_of_fitted hj, ih hks⟩

/-- A brightness or channel of 8 bits is taken as it is. -/
theorem byteOperand_toNat (b : Byte) : byteOperand b.toNat = some b := by
  rw [byteOperand, if_pos ⟨Int.natCast_nonneg _, by omega⟩, BitVec.ofInt_natCast, BitVec.ofNat_toNat, BitVec.setWidth_eq]

theorem byteOperand_of_out_of_range {v : Int} (h : v < 0 ∨ 255 < v) : byteOperand v = none :=
  if_neg (by omega)

/-! ### Written commands -/

/-- The mnemonic of a row finds that row. -/
theorem find?_mnemonic : ∀ r ∈ opRows, opRows.find? (fun q => q.mnemonic == r.mnemonic) = some r := by decide

/-- A command's written form carries its row's mnemonic. -/
theorem exists_row_writtenForm (i : Instr) : ∃ r ∈ opRows, r.opcode = i.opcode ∧ r.mnemonic = (writtenForm i).1 := by
  cases i <;> simp [opRows, systemRows, pixelRows, shapeRows, Instr.opcode, writtenForm]

/-- A row's line assembles to the row's command on the operands, if it fits. -/
theorem assemble_row {r : OpRow} (hr : r ∈ opRows) (ops : List AsmOperand) :
    assemble r.mnemonic ops = (operandForm r.opcode ops).bind (fun i => (fitted i).map (fun j => [j])) := by
  simp only [assemble, find?_mnemonic r hr]

/-- A command's written operands are read as that command. -/
theorem operandForm_writtenForm (i : Instr) : operandForm i.opcode (writtenForm i).2 = some i := by
  cases i with
  | setBright v => exact congrArg (Option.map Instr.setBright) (byteOperand_toNat v)
  | _ => rfl

theorem assemble_writtenForm (i : Instr) :
    assemble (writtenForm i).1 (writtenForm i).2 = (fitted i).map (fun j => [j]) := by
  obtain ⟨r, hr, hop, hm⟩ := exists_row_writtenForm i
  rw [← hm, assemble_row hr, hop, operandForm_writtenForm, Option.bind_some]

/-- A brightness outside 0..255 is refused before it is a command. -/
theorem assemble_setBright_of_out_of_range {v : Int} (h : v < 0 ∨ 255 < v) : assemble "SETBRIGHT" [.int v] = none := by
  obtain ⟨r, hr, hop, hm⟩ := exists_row_writtenForm (.setBright 0)
  change r.mnemonic = "SETBRIGHT" at hm
  have hform : operandForm r.opcode [.int v] = none := by
    rw [hop]
    exact congrArg (Option.map Instr.setBright) (byteOperand_of_out_of_range h)
  rw [← hm, assemble_row hr, hform, Option.bind_none]

/-- Whatever the assembler accepts has passed the check on the fields. -/
theorem wellFormed_of_assemble {m : String} {ops : List AsmOperand} {is : List Instr} (h : assemble m ops = some is) :
    ∀ i ∈ is, WellFormed i := by
  rw [assemble] at h
  split at h
  · obtain ⟨i, -, hi⟩ := Option.bind_eq_some_iff.1 h
    obtain ⟨j, hj, rfl⟩ := Option.map_eq_some_iff.1 hi
    exact List.forall_mem_singleton.2 (wellFormed_of_fitted hj)
  · obtain ⟨js, -, hjs⟩ := Option.bind_eq_some_iff.1 h
    exact wellFormed_of_mapM_fitted hjs

/-! ### Pseudo-commands -/

/-- A mnemonic of no row is assembled as a pseudo-command. -/
theorem assemble_pseudo {m : String} (hm : opRows.find? (fun r => r.mnemonic == m) = none) (ops : List AsmOperand) :
    assemble m ops = (pseudoForm m ops).bind (fun is => is.mapM fitted) := by
  simp only [assemble, hm]

theorem find?_setPixelRgb : opRows.find? (fun r => r.mnemonic == "SETPIXELRGB") = none := by decide
theorem find?_fillColorRgb : opRows.find? (fun r => r.mnemonic == "FILLCOLORRGB") = none := by decide
theorem find?_showBright : opRows.find? (fun r => r.mnemonic == "SHOWBRIGHT") = none := by decide

/-- The packed colour of three written channels, if each is in 0..255. -/
def packedOperand (r g b : Int) : Option Color :=
  (byteOperand r).bind fun r => (byteOperand g).bind fun g => (byteOperand b).map fun b => packColor r g b

theorem packedOperand_toNat (r g b : Byte) : packedOperand r.toNat g.toNat b.toNat = some (packColor r g b) := by
  simp only [packedOperand, byteOperand_toNat, Option.bind_some, Option.map_some]

/-- One channel out of range refuses the colour (R175). -/
theorem packedOperand_of_out_of_range {r g b : Int} (h : r < 0 ∨ 255 < r ∨ g < 0 ∨ 255 < g ∨ b < 0 ∨ 255 < b) :
    packedOperand r g b = none := by
  have hchannel : (r < 0 ∨ 255 < r) ∨ (g < 0 ∨ 255 < g) ∨ (b < 0 ∨ 255 < b) := by omega
  rcases hchannel with h | h | h <;> simp [packedOperand, byteOperand_of_out_of_range h]

theorem pseudoForm_setPixelRgb (x y r g b : Int) :
    pseudoForm "SETPIXELRGB" [.int x, .int y, .int r, .int g, .int b] =
      (packedOperand r g b).map fun c => [.setPixel x y c] := by
  simp only [pseudoForm, packedOperand, if_true]
  cases byteOperand r <;> cases byteOperand g <;> cases byteOperand b <;> rfl

theorem pseudoForm_fillColorRgb (r g b : Int) :
    pseudoForm "FILLCOLORRGB" [.int r, .int g, .int b] = (packedOperand r g b).map fun c => [.fillColor c] := by
  simp only [pseudoForm, packedOperand, if_true]
  cases byteOperand r <;> cases byteOperand g <;> cases byteOperand b <;> rfl

theorem pseudoForm_showBright (v : Int) :
    pseudoForm "SHOWBRIGHT" [.int v] = (byteOperand v).map fun b => [.setBright b, .update] := by
  simp only [pseudoForm, if_true]

end Sys2Proof.Machine
end

section
namespace Sys2Proof.Proofs
open Sys2Proof Sys2Proof.Machine

/-! ## The assembler -/

/-- Settles O59: every way to accept a line passes the check on the fields; a written command is read back as itself, so it is
refused by that check alone; and a brightness outside 0..255 is refused before it. -/
theorem assembledCommandsAreWellFormed : Obligations.AssembledCommandsAreWellFormed := by
  refine ⟨fun m ops is h => wellFormed_of_assemble h, fun i => ⟨fun hi => ?_, fun hi => ?_⟩, fun v hv => ?_⟩
  · rw [assemble_writtenForm, fitted_of_wellFormed hi, Option.map_some]
  · rw [assemble_writtenForm, fitted_of_not_wellFormed hi, Option.map_none]
  · exact assemble_setBright_of_out_of_range hv

/-- Settles O60: the channels of a pseudo-command are packed into one colour, or refused where one is outside 0..255 (R72,
R175); the real commands that come of it are then checked like any other. -/
theorem pseudoCommandsExpand : Obligations.PseudoCommandsExpand := by
  refine ⟨fun x y r g b hx hy => ?_, fun r g b => ?_, fun v => ?_, fun x y r g b h => ⟨?_, ?_⟩⟩
  · have hfit : fitted (.setPixel x y (packColor r g b)) = some _ := fitted_of_wellFormed ⟨hx, hy⟩
    rw [assemble_pseudo find?_setPixelRgb, pseudoForm_setPixelRgb, packedOperand_toNat]
    simp [hfit]
  · rw [assemble_pseudo find?_fillColorRgb, pseudoForm_fillColorRgb, packedOperand_toNat]
    rfl
  · rw [assemble_pseudo find?_showBright, pseudoForm_showBright, byteOperand_toNat]
    rfl
  · rw [assemble_pseudo find?_setPixelRgb, pseudoForm_setPixelRgb, packedOperand_of_out_of_range h]
    rfl
  · rw [assemble_pseudo find?_fillColorRgb, pseudoForm_fillColorRgb, packedOperand_of_out_of_range h]
    rfl

end Sys2Proof.Proofs
end

section
namespace Sys2Proof

/-! ## A command has one word (R60, R61) -/

/-- The words that decode to a well-formed command are its encoding alone. -/
theorem decode_eq_ok_iff {i : Instr} (hi : WellFormed i) {w : CmdWord} : decode w = .ok i ↔ w = encode i := by
  constructor
  · exact fun h => (Proofs.encodeOfDecode w i h).2.symm
  · rintro rfl
    exact Proofs.decodeOfEncode i hi

/-- The encoding of BEGIN (R63, R80). -/
theorem encode_begin : encode .begin = 0x0100000000000000#64 := by decide

end Sys2Proof
end

section
namespace Sys2Proof.Machine

/-! ## The black framebuffer -/

/-- Writing black removes cells from the list, whatever their order in it. -/
theorem Memory.foldl_write_black (as : List Nat) (m : Memory) :
    as.foldl (fun n a => n.write a black) m = m.filter (fun e => e.1 ∉ as) := by
  induction as generalizing m with
  | nil => simp
  | cons a as ih =>
    have hwrite : m.write a black = m.filter (fun e => e.1 != a) := if_pos rfl
    rw [List.foldl_cons, ih, hwrite, List.filter_filter]
    refine List.filter_congr fun e _ => ?_
    rw [Bool.eq_iff_iff]
    simp [and_comm]

/-- So filling with black a second time leaves the very same list, also where it was not in the canonical form. -/
theorem Memory.fill_black_fill_black (m : Memory) : (m.fill black).fill black = m.fill black := by
  simp only [Memory.fill, Memory.foldl_write_black, List.filter_filter, Bool.and_self]

/-! ## The frame of a black framebuffer -/

/-- Each component of black is 0 (R170). -/
theorem colorComponent_black : ∀ k : Component, colorComponent black k = 0#8 := by decide

/-- An intensity of 0 stays 0 at every brightness (R111). -/
theorem scale_zero (b : Byte) : scale 0#8 b = 0#8 := by
  simp [scale]

/-- After a black fill each channel's write is 0, at every brightness. -/
theorem writeOf_fill_black (m : Memory) (bright : Byte) (i : ChannelId) : writeOf (m.fill black) bright i = (i, 0#8) := by
  have hcell : channelCell i < 64 := by unfold channelCell; omega
  rw [writeOf, Memory.read_fill, if_pos hcell, colorComponent_black, scale_zero]

/-- The refresh after a black fill writes 0 to each of the 192 channels in turn (R112). -/
theorem rasterWrites_fill_black (m : Memory) (bright : Byte) :
    rasterWrites (m.fill black) bright = (List.finRange 192).map (fun i => (i, 0#8)) := by
  rw [rasterWrites_eq]
  exact List.map_congr_left fun i _ => writeOf_fill_black m bright i

/-- While the block is Begun, a black fill leaves 0 in every channel. -/
theorem fillAll_black_ch {s : State} (hb : s.begun = true) : (s.fillAll black).ch = Vector.replicate 192 (some 0#8) := by
  ext1 i hi
  have hget : (s.fillAll black).ch.get ⟨i, hi⟩ = some 0#8 := by
    rw [State.fillAll, refresh_get, State.fillCells_begun, if_pos hb, State.fillCells_fb, State.fillCells_bright,
      writeOf_fill_black]
  simpa [Vector.get_eq_getElem] using hget

/-! ## BEGIN (R80) -/

/-- The frame that BEGIN's refresh appends. -/
def beginFrame : Frame := ⟨true, (List.finRange 192).map fun i => (i, 0#8)⟩

/-- The state that BEGIN leaves, every field written out (R80). Its fields are read by the lemmas below and not by rfl, which
would evaluate the fill. -/
def State.afterBegin (s : State) : State :=
  { s with
    fb := s.fb.fill black
    ch := Vector.replicate 192 (some 0#8)
    pinsCfg := true
    pwmCfg := true
    pwmFreq := some Config.pwmFrequency
    pwmRes := some Config.pwmResolution
    resp := some 0x00000001#32
    log := s.log ++ [beginFrame] }

@[simp] theorem State.afterBegin_fb (s : State) : s.afterBegin.fb = s.fb.fill black := by
  simp only [State.afterBegin]
@[simp] theorem State.afterBegin_ch (s : State) : s.afterBegin.ch = Vector.replicate 192 (some 0#8) := by
  simp only [State.afterBegin]
@[simp] theorem State.afterBegin_log (s : State) : s.afterBegin.log = s.log ++ [beginFrame] := by
  simp only [State.afterBegin]

/-- From every state BEGIN completes and leaves exactly that one. -/
theorem exec_begin_eq_afterBegin (s : State) : exec .begin s = .next s.afterBegin := by
  have hbegun : (s.configurePins.configurePwm Config.pwmFrequency Config.pwmResolution).begun = true := rfl
  have hstate : ((s.configurePins.configurePwm Config.pwmFrequency Config.pwmResolution).fillAll black).respond 1 =
      s.afterBegin := by
    unfold State.afterBegin
    ext1
    case ch => rw [State.respond_ch, fillAll_black_ch hbegun]
    case log => simp [hbegun, rasterWrites_fill_black, beginFrame]
    all_goals simp
  rw [exec_begin, hstate]

/-- A second BEGIN changes only the trace, by the frame that the first appended (R81). -/
theorem afterBegin_afterBegin (s : State) :
    s.afterBegin.afterBegin = { s.afterBegin with log := s.afterBegin.log ++ [beginFrame] } := by
  simp only [State.afterBegin, Memory.fill_black_fill_black]

end Sys2Proof.Machine
end

section
namespace Sys2Proof.Proofs
open Sys2Proof Sys2Proof.Machine

/-! ## BEGIN (40_lifecycle.md) -/

/-- Settles O35: BEGIN is well-formed, so its encoding is its only word, and what it leaves is known field by field (R80). -/
theorem beginConfiguresAndClears : Obligations.BeginConfiguresAndClears := by
  have hword : ∀ w : CmdWord, decode w = .ok .begin ↔ w = 0x0100000000000000#64 := by
    intro w
    rw [decode_eq_ok_iff trivial, encode_begin]
  refine ⟨(hword _).2 rfl, fun w => (hword w).1, fun s => ⟨s.afterBegin, exec_begin_eq_afterBegin s, ?_, ?_, ?_, ?_⟩⟩
  · simp only [State.afterBegin]
  · intro a ha
    rw [State.readCell, State.afterBegin_fb, Memory.read_fill, if_pos ha]
  · intro i
    rw [State.afterBegin_ch, Vector.get_eq_getElem, Vector.getElem_replicate]
  · rw [State.afterBegin_log, beginFrame]

/-- Settles O36: a second black fill finds nothing to remove and its refresh writes 0 again, so only the trace grows, by one
more frame of zeros (R81). -/
theorem beginAgainActsLikeFirst : Obligations.BeginAgainActsLikeFirst := by
  intro s t h
  obtain rfl : s.afterBegin = t := Host.Outcome.next.inj ((exec_begin_eq_afterBegin s).symm.trans h)
  refine ⟨beginFrame, by simp, ?_⟩
  rw [exec_begin_eq_afterBegin, afterBegin_afterBegin]

end Sys2Proof.Proofs
end

section
namespace Sys2Proof

/-! ## A word that matches a row (R63, R71) -/

/-- A word that meets a row's mask and match decodes to the row's command, on the word's operands. -/
theorem decode_of_masked {r : OpRow} (hr : r ∈ opRows) {w : CmdWord} (h : w &&& r.mask = r.pattern) :
    decode w = .ok (operandsOf r.opcode w) := by
  obtain ⟨hop, hz⟩ := (masked_eq_pattern_iff hr w).1 h
  exact decode_of_fields hop hz

end Sys2Proof
end

section
namespace Sys2Proof.Machine

/-! ## The bounds of a coordinate (R10, R92) -/

/-- In-range coordinates, with the grid's size as a number. -/
theorem inRange_iff (x y : Int) : InRange x y ↔ (0 ≤ x ∧ x < 8) ∧ (0 ≤ y ∧ y < 8) := Iff.rfl

theorem not_inRange_iff (x y : Int) : ¬ InRange x y ↔ x < 0 ∨ 8 ≤ x ∨ y < 0 ∨ 8 ≤ y := by
  rw [inRange_iff]
  omega

/-- The number of an in-range cell, before it is taken as a natural number. -/
theorem idx_eq {x y : Int} (h : InRange x y) : (idx x y : Int) = 8 * y + x := by
  obtain ⟨⟨hx, -⟩, hy, -⟩ := h
  exact Int.toNat_of_nonneg (Int.add_nonneg (Int.mul_nonneg (by decide) hy) hx)

/-- Plotting out of range leaves the very same list, and not only what it reads. -/
theorem Memory.plot_of_not_inRange (m : Memory) {x y : Int} (h : ¬ InRange x y) (c : Color) : m.plot x y c = m := if_neg h

end Sys2Proof.Machine
end

section
namespace Sys2Proof.Proofs
open Sys2Proof Sys2Proof.Machine

/-! ## Pixel access (41_pixel_access.md) -/

/-- Settles O21: SETPIXEL is one plot and the answer 0, and a plot changes what the coordinate's own cell reads alone, where the
coordinate has one (R10, R90). -/
theorem setPixelWritesOneCell : Obligations.SetPixelWritesOneCell := by
  refine ⟨fun x y => ⟨inRange_iff x y, idx_eq⟩, fun w hw => ?_, fun x y c s => ⟨_, exec_setPixel x y c s, rfl, ?_, ?_⟩⟩
  · exact decode_of_masked (r := ⟨.setPixel, "SETPIXEL", _, _⟩) (by decide) hw
  · intro hin
    rw [State.respond_readCell, State.plot_readCell, Memory.read_plot, if_pos ⟨hin, rfl⟩]
  · intro a ha
    rw [State.respond_readCell, State.plot_readCell, Memory.read_plot, if_neg ha, State.readCell]

/-- Settles O22: GETPIXEL is its answer alone, the cell or black (R91). -/
theorem getPixelReadsOneCell : Obligations.GetPixelReadsOneCell :=
  ⟨fun _ hw => decode_of_masked (r := ⟨.getPixel, "GETPIXEL", _, _⟩) (by decide) hw, exec_getPixel⟩

/-- Settles O23: out of range a plot leaves the framebuffer as it is, and GETPIXEL's answer is black (R92). -/
theorem boundsSafety : Obligations.BoundsSafety := by
  intro x y c s h
  have hout : ¬ InRange x y := (not_inRange_iff x y).2 h
  refine ⟨⟨_, exec_setPixel x y c s, ?_⟩, _, exec_getPixel x y s, ?_⟩
  · rw [State.respond_fb, State.plot_fb, Memory.plot_of_not_inRange s.fb hout c]
  · rw [State.respond_resp, if_neg hout]
    rfl

end Sys2Proof.Proofs
end

section
namespace Sys2Proof

/-! ## CLEAR's word (R63, R100) -/

theorem encode_clear : encode .clear = 0x2000000000000000#64 := by decide

end Sys2Proof
end

section
namespace Sys2Proof.Machine

/-! ## The whole-buffer fill (R103) -/

/-- A fill changes the framebuffer, and by its one refresh the channels and the trace. -/
theorem fillAll_respond_frame (s : State) (c : Color) (r : RespWord) :
    (s.fillAll c).respond r =
      { s with
        fb := ((s.fillAll c).respond r).fb
        ch := ((s.fillAll c).respond r).ch
        log := ((s.fillAll c).respond r).log
        resp := some r } := by
  ext1 <;> simp

/-- After a fill every cell holds its colour. -/
theorem fillAll_readCell_of_lt (s : State) (c : Color) {a : Nat} (ha : a < 64) : (s.fillAll c).readCell a = c := by
  rw [State.fillAll_readCell, Memory.read_fill, if_pos ha]

/-- A fill and the answer after it have the whole effect that the statements on CLEAR, CLEARCOLOR and FILLCOLOR share. -/
theorem fillAll_respond_effect (s : State) (c : Color) (r : RespWord) : FillEffect c r s ((s.fillAll c).respond r) where
  frame := fillAll_respond_frame s c r
  cells a ha := (State.respond_readCell _ r a).trans (fillAll_readCell_of_lt s c ha)
  shown := (fillAll_shows s c).respond r

end Sys2Proof.Machine
end

section
namespace Sys2Proof.Proofs
open Sys2Proof Sys2Proof.Machine

/-! ## The bulk fills (42_bulk_fill.md) -/

/-- Settles O37: CLEAR is well-formed, so its encoding is its only word; it is a fill with black (R100), and the refresh of a
black framebuffer writes 0 to each channel at every brightness (R111). -/
theorem clearBlackensEveryCell : Obligations.ClearBlackensEveryCell := by
  have hword : ∀ w : CmdWord, decode w = .ok .clear ↔ w = 0x2000000000000000#64 := by
    intro w
    rw [decode_eq_ok_iff trivial, encode_clear]
  refine ⟨(hword _).2 rfl, fun w => (hword w).1, fun s => ⟨_, exec_clear s, fillAll_respond_effect s black 0, ?_⟩⟩
  rw [State.respond_log, State.fillAll_log, rasterWrites_fill_black]

/-- Settles O38: the word is read by its row, and CLEARCOLOR is a fill with its colour (R101). -/
theorem clearColorFillsEveryCell : Obligations.ClearColorFillsEveryCell := by
  refine ⟨fun w hw => ?_, fun c s => ⟨_, exec_clearColor c s, fillAll_respond_effect s c 0⟩⟩
  exact decode_of_masked (r := ⟨.clearColor, "CLEARCOLOR", _, _⟩) (by decide) hw

/-- Settles O39: the word is read by its own row, and FILLCOLOR is the very fill that CLEARCOLOR is (R102). -/
theorem fillColorFillsEveryCell : Obligations.FillColorFillsEveryCell := by
  refine ⟨fun w hw => ?_, fun c s => ⟨_, exec_fillColor c s, fillAll_respond_effect s c 0, exec_clearColor c s⟩⟩
  exact decode_of_masked (r := ⟨.fillColor, "FILLCOLOR", _, _⟩) (by decide) hw

/-- Settles O40: after a fill with black an in-range GETPIXEL reads black, and a second fill with black finds no cell to remove
from the framebuffer's list, so only the trace grows, by one frame (R104). -/
theorem clearIsIdempotent : Obligations.ClearIsIdempotent := by
  intro s
  refine ⟨_, _, _, exec_clear s, fun x y hxy => ⟨_, exec_getPixel x y _, ?_⟩, exec_clear _, ?_,
    (State.respond_log _ 0).trans (State.fillAll_log _ black)⟩
  · rw [State.respond_resp, if_pos hxy, State.respond_readCell, fillAll_readCell_of_lt s black (idx_lt hxy)]
    rfl
  · simp only [State.respond_fb, State.fillAll_fb, Memory.fill_black_fill_black]

end Sys2Proof.Proofs
end

section
namespace Sys2Proof

/-! ## UPDATE's word (R63, R110) -/

theorem encode_update : encode .update = 0x0200000000000000#64 := by decide

end Sys2Proof
end

section
namespace Sys2Proof.Machine

/-! ## Brightness scaling (R111, R115) -/

/-- The quotient is at most 255, so it fits the 8 bits of the result. -/
theorem scale_toNat (c b : Byte) : (scale c b).toNat = c.toNat * b.toNat / 255 := by
  have hc : c.toNat ≤ 255 := Nat.le_of_lt_succ c.isLt
  have hb : b.toNat ≤ 255 := Nat.le_of_lt_succ b.isLt
  have hquot : c.toNat * b.toNat / 255 ≤ 255 := Nat.div_le_of_le_mul (Nat.mul_le_mul hc hb)
  rw [scale, BitVec.toNat_ofNat, Nat.mod_eq_of_lt (Nat.lt_succ_of_le hquot)]

theorem scale_comm (c b : Byte) : scale c b = scale b c := by
  rw [scale, scale, Nat.mul_comm]

theorem scale_max (c : Byte) : scale c 255#8 = c :=
  BitVec.eq_of_toNat_eq ((scale_toNat c 255#8).trans (Nat.mul_div_cancel c.toNat (by decide)))

theorem scale_mono {c c' : Byte} (h : c ≤ c') (b : Byte) : scale c b ≤ scale c' b := by
  rw [BitVec.le_def, scale_toNat, scale_toNat]
  exact Nat.div_le_div_right (Nat.mul_le_mul_right b.toNat h)

/-- The bound is the value at full brightness. -/
theorem scale_le_left (c b : Byte) : scale c b ≤ c :=
  calc scale c b = scale b c := scale_comm c b
    _ ≤ scale 255#8 c := scale_mono (BitVec.le_def.2 (Nat.le_of_lt_succ b.isLt)) c
    _ = scale c 255#8 := scale_comm 255#8 c
    _ = c := scale_max c

/-- Below full brightness the product is below 255 times a lit component. -/
theorem scale_lt_left {c b : Byte} (hc : 0#8 < c) (hb : b < 255#8) : scale c b < c := by
  rw [BitVec.lt_def, scale_toNat]
  refine Nat.div_lt_of_lt_mul ?_
  rw [Nat.mul_comm]
  exact Nat.mul_lt_mul_of_pos_right hb hc

/-! ## Which commands refresh (R114) -/

/-- A command that refreshes does so once, on a state whose trace is still the old one, and then answers. -/
theorem exec_refreshing (s : State) {i : Instr} (hi : i.opcode.refreshes = true) :
    ∃ (u : State) (r : RespWord), exec i s = .next (u.refresh.respond r) ∧ u.log = s.log := by
  cases i with
  | begin => exact ⟨State.fillCells _ black, 1, exec_begin s, State.fillCells_log _ black⟩
  | update => exact ⟨s, 0, exec_update s, rfl⟩
  | clear => exact ⟨s.fillCells black, 0, exec_clear s, State.fillCells_log s black⟩
  | clearColor c => exact ⟨s.fillCells c, 0, exec_clearColor c s, State.fillCells_log s c⟩
  | fillColor c => exact ⟨s.fillCells c, 0, exec_fillColor c s, State.fillCells_log s c⟩
  | drawHLine x y n c => exact ⟨s.plotAll _ c, 0, exec_drawHLine x y n c s, State.plotAll_log s _ c⟩
  | drawVLine x y n c => exact ⟨s.plotAll _ c, 0, exec_drawVLine x y n c s, State.plotAll_log s _ c⟩
  | drawRect x y w h c => exact ⟨s.plotAll _ c, 0, exec_drawRect x y w h c s, State.plotAll_log s _ c⟩
  | fillRect x y w h c => exact ⟨s.plotAll _ c, 0, exec_fillRect x y w h c s, State.plotAll_log s _ c⟩
  | drawCircle x y r c => exact ⟨s.plotAll _ c, 0, exec_drawCircle x y r c s, State.plotAll_log s _ c⟩
  | fillCircle x y r c => exact ⟨s.plotAll _ c, 0, exec_fillCircle x y r c s, State.plotAll_log s _ c⟩
  | setPixel | getPixel | setBright | getBright => cases hi

/-- Every other command leaves the trace and the channels as they are. -/
theorem exec_quiet (s : State) {i : Instr} (hi : i.opcode.refreshes = false) :
    ∃ t, exec i s = .next t ∧ t.log = s.log ∧ t.ch = s.ch := by
  cases i with
  | setPixel x y c => exact ⟨_, exec_setPixel x y c s, rfl, rfl⟩
  | getPixel x y => exact ⟨_, exec_getPixel x y s, rfl, rfl⟩
  | setBright v => exact ⟨_, exec_setBright v s, rfl, rfl⟩
  | getBright => exact ⟨_, exec_getBright s, rfl, rfl⟩
  | _ => cases hi

/-- The outputs after a command that does not refresh, from its outcome. -/
theorem exec_quiet_outputs {i : Instr} {s t : State} (hi : i.opcode.refreshes = false) (h : exec i s = .next t) :
    t.log = s.log ∧ t.ch = s.ch := by
  obtain ⟨u, hu, hout⟩ := exec_quiet s hi
  obtain rfl : u = t := Host.Outcome.next.inj (hu.symm.trans h)
  exact hout

/-- The one frame of a command that refreshes, from its outcome: its writes name the channels in turn. -/
theorem exec_refreshing_frame {i : Instr} {s t : State} (hi : i.opcode.refreshes = true) (h : exec i s = .next t) :
    ∃ f, t.log = s.log ++ [f] ∧ f.writes.map Prod.fst = List.finRange 192 := by
  obtain ⟨u, r, hu, hlog⟩ := exec_refreshing s hi
  obtain rfl : u.refresh.respond r = t := Host.Outcome.next.inj (hu.symm.trans h)
  exact ⟨⟨u.begun, rasterWrites u.fb u.bright⟩, by simp [hlog], rasterWrites_ids _ _⟩

/-! ## The refresh alone (R110, R113) -/

/-- A refresh and the answer after it change the channels, the trace and RESP. -/
theorem refresh_respond_frame (s : State) (r : RespWord) :
    s.refresh.respond r =
      { s with ch := (s.refresh.respond r).ch, log := (s.refresh.respond r).log, resp := some r } := by
  ext1 <;> simp

/-- Refreshes, however many, change neither FB nor BRIGHT. -/
theorem iterate_refresh_stored (n : Nat) (s : State) :
    (Nat.iterate State.refresh n s).fb = s.fb ∧ (Nat.iterate State.refresh n s).bright = s.bright := by
  induction n generalizing s with
  | zero => exact ⟨rfl, rfl⟩
  | succ n ih =>
    obtain ⟨hfb, hbright⟩ := ih s.refresh
    exact ⟨hfb.trans (State.refresh_fb s), hbright.trans (State.refresh_bright s)⟩

end Sys2Proof.Machine
end

section
namespace Sys2Proof.Proofs
open Sys2Proof Sys2Proof.Machine

/-! ## The refresh (43_refresh.md) -/

/-- Settles O14: the commands split by R114's table into those that refresh once, whose frame names the channels in turn (R112),
and those that touch no output; a refused word sets the mark alone (R202). -/
theorem framesPerCommand : Obligations.FramesPerCommand := by
  refine ⟨fun i s t h => ?_, fun s r h => ?_⟩
  · cases i with
    | setPixel | getPixel | setBright | getBright => exact exec_quiet_outputs rfl h
    | _ => exact exec_refreshing_frame rfl h
  · rw [afterStep_of_refused h]
    exact ⟨State.refuse_log s, State.refuse_ch s⟩

/-- Settles O29: the quotient of two 8-bit values' product by 255 fits 8 bits (R111). -/
theorem scaleIsTruncatedQuotient : Obligations.ScaleIsTruncatedQuotient := scale_toNat

/-- Settles O30: each property of R115 is one of the quotient, and what holds of the first argument holds of the second by
symmetry. -/
theorem scaleProperties : Obligations.ScaleProperties := by
  refine ⟨fun c => ?_, scale_max, scale_zero, scale_comm, fun c b => ⟨scale_le_left c b, ?_⟩,
    fun _ _ b h => scale_mono h b, fun _ _ => scale_lt_left⟩
  · rw [scale_comm, scale_zero]
  · rw [scale_comm]
    exact scale_le_left b c

/-- Settles O31: UPDATE is well-formed, so its encoding is its only word, and it is one refresh and the answer 0 (R110). -/
theorem updateShowsFramebuffer : Obligations.UpdateShowsFramebuffer := by
  have hword : ∀ w : CmdWord, decode w = .ok .update ↔ w = 0x0200000000000000#64 := by
    intro w
    rw [decode_eq_ok_iff trivial, encode_update]
  exact ⟨(hword _).2 rfl, fun w => (hword w).1,
    fun s => ⟨_, exec_update s, refresh_respond_frame s 0, (refresh_shows s).respond 0⟩⟩

/-- Settles O32: the refreshes leave the framebuffer's list as it is, so GETPIXEL reads the cell that was there before them
(R91, R113). -/
theorem refreshKeepsStoredColors : Obligations.RefreshKeepsStoredColors := by
  intro n s
  obtain ⟨hfb, hbright⟩ := iterate_refresh_stored n s
  refine ⟨hfb, hbright, fun x y hxy => ⟨_, exec_getPixel x y _, ?_⟩⟩
  rw [State.respond_resp, if_pos hxy, State.readCell, hfb, zextColor, State.readCell]

end Sys2Proof.Proofs
end

section
namespace Sys2Proof

/-! ## GETBRIGHT's word (R63, R131) -/

theorem encode_getBright : encode .getBright = 0x0400000000000000#64 := by decide

end Sys2Proof
end

section
namespace Sys2Proof.Machine

/-! ## BRIGHT and the outputs, between two refreshes and at the next (R114, R132) -/

/-- A command other than SETBRIGHT keeps BRIGHT (R21). -/
theorem exec_keeps_bright {i : Instr} {s t : State} (hi : i.opcode ≠ .setBright) (h : exec i s = .next t) :
    t.bright = s.bright := by
  rcases Proofs.onlySetBrightWritesBrightness i s t h with ⟨v, rfl, -⟩ | ⟨-, hbright⟩
  · exact absurd rfl hi
  · exact hbright

/-- A command that refreshes shows, at the brightness it finds, the framebuffer it leaves, in one more frame. -/
theorem exec_refreshing_shows (s : State) {i : Instr} (hi : i.opcode.refreshes = true) :
    ∃ t, exec i s = .next t ∧ t.bright = s.bright ∧ ShowsOneMoreFrame s.log t := by
  obtain ⟨u, r, hexec, hlog⟩ := exec_refreshing s hi
  have hset : i.opcode ≠ .setBright := fun h => nomatch h ▸ hi
  refine ⟨_, hexec, exec_keeps_bright hset hexec, ?_⟩
  rw [← hlog]
  exact (refresh_shows u).respond r

/-- Commands without a refresh, run one after another, all complete and leave the outputs as they are; BRIGHT too, when no
SETBRIGHT is among them. -/
theorem runs_quiet (is : List Instr) (s : State) (hq : ∀ i ∈ is, i.opcode.refreshes = false) :
    ∃ t, Runs s is t ∧ t.ch = s.ch ∧ t.log = s.log ∧ ((∀ i ∈ is, i.opcode ≠ .setBright) → t.bright = s.bright) := by
  induction is generalizing s with
  | nil => exact ⟨s, .nil s, rfl, rfl, fun _ => rfl⟩
  | cons i is ih =>
    obtain ⟨hi, his⟩ := List.forall_mem_cons.1 hq
    obtain ⟨u, hexec, hlog, hch⟩ := exec_quiet s hi
    obtain ⟨t, hruns, htch, htlog, htbright⟩ := ih u his
    refine ⟨t, .cons s u t i is hexec hruns, htch.trans hch, htlog.trans hlog, fun hset => ?_⟩
    obtain ⟨hi', his'⟩ := List.forall_mem_cons.1 hset
    exact (htbright his').trans (exec_keeps_bright hi' hexec)

end Sys2Proof.Machine
end

section
namespace Sys2Proof.Proofs
open Sys2Proof Sys2Proof.Machine

/-! ## Brightness (44_brightness.md) -/

/-- Settles O25: the word is read by its row, and SETBRIGHT is the write to BRIGHT and the answer 0 (R130). -/
theorem setBrightWritesBrightness : Obligations.SetBrightWritesBrightness :=
  ⟨fun _ hw => decode_of_masked (r := ⟨.setBright, "SETBRIGHT", _, _⟩) (by decide) hw, exec_setBright⟩

/-- Settles O26: GETBRIGHT is well-formed, so its encoding is its only word, and it is its answer alone (R131). -/
theorem getBrightReadsBrightness : Obligations.GetBrightReadsBrightness := by
  have hword : ∀ w : CmdWord, decode w = .ok .getBright ↔ w = 0x0400000000000000#64 := by
    intro w
    rw [decode_eq_ok_iff trivial, encode_getBright]
  exact ⟨(hword _).2 rfl, fun w => (hword w).1, exec_getBright⟩

/-- Settles O27: neither SETBRIGHT nor any run of commands without a refresh touches the outputs, so the next refresh is the
first to show BRIGHT, in the one frame it adds to the old trace (R132). -/
theorem brightnessShowsAtNextRefresh : Obligations.BrightnessShowsAtNextRefresh := by
  refine fun v s => ⟨_, exec_setBright v s, rfl, rfl, rfl, fun quiet hquiet => ?_⟩
  obtain ⟨u, hruns, hch, hlog, hbright⟩ := runs_quiet quiet ((s.setBrightness v).respond 0) hquiet
  refine ⟨u, hruns, hch, hlog, hbright, fun i hi => ?_⟩
  obtain ⟨r, hexec, hkept, hshown⟩ := exec_refreshing_shows u hi
  have hold : u.log = s.log := hlog
  exact ⟨r, hexec, hkept, hold ▸ hshown⟩

end Sys2Proof.Proofs
end

section
namespace Sys2Proof.Machine

/-! ## A shape command (R140) -/

/-- A shape changes the framebuffer, and by its one refresh the channels and the trace. -/
theorem shape_respond_frame (s : State) (cells : List Coord) (c : Color) (r : RespWord) :
    (s.shape cells c).respond r =
      { s with
        fb := ((s.shape cells c).respond r).fb
        ch := ((s.shape cells c).respond r).ch
        log := ((s.shape cells c).respond r).log
        resp := some r } := by
  ext1 <;> simp

/-- An in-range coordinate's cell is plotted exactly when the coordinate is in the cell set: no other coordinate has that cell. -/
theorem exists_plotted_iff {cells : List Coord} {u v : Int} (h : InRange u v) :
    (∃ p ∈ cells, InRange p.1 p.2 ∧ idx u v = idx p.1 p.2) ↔ (u, v) ∈ cells := by
  constructor
  · rintro ⟨⟨x, y⟩, hp, hin, hidx⟩
    obtain ⟨rfl, rfl⟩ := (idx_inj h hin).1 hidx
    exact hp
  · exact fun hmem => ⟨(u, v), hmem, h, rfl⟩

/-- The effect that the statements on the six shape commands share, for any description `lit` of the cell set. -/
theorem shape_respond_effect (s : State) {cells : List Coord} {lit : Int → Int → Prop}
    (hlit : ∀ u v : Int, (u, v) ∈ cells ↔ lit u v) (c : Color) : ShapeEffect lit c s ((s.shape cells c).respond 0) where
  frame := shape_respond_frame s cells c 0
  inside u v hin h := by
    rw [State.respond_readCell, State.shape_readCell]
    exact Memory.read_plotAll_mem cells c s.fb _ ((exists_plotted_iff hin).2 ((hlit u v).2 h))
  outside u v hin h := by
    rw [State.respond_readCell, State.shape_readCell]
    exact Memory.read_plotAll_not_mem cells c s.fb _ (mt (fun hp => (hlit u v).1 ((exists_plotted_iff hin).1 hp)) h)
  shown := (shape_shows s cells c).respond 0

/-! ## The disc (R146) -/

/-- The scan's bounding box leaves out no cell of the disc: a leg of a right triangle is at most its hypotenuse. -/
theorem mem_discCells_iff (x0 y0 r u v : Int) :
    (u, v) ∈ discCells x0 y0 r ↔ 0 ≤ r ∧ (u - x0) * (u - x0) + (v - y0) * (v - y0) ≤ r * r := by
  rw [mem_discCells]
  constructor
  · rintro ⟨hu, -, hsum⟩
    exact ⟨by omega, hsum⟩
  · rintro ⟨hr, hsum⟩
    have hu : (u - x0) * (u - x0) ≤ r * r := (le_add_of_nonneg_right (mul_self_nonneg _)).trans hsum
    have hv : (v - y0) * (v - y0) ≤ r * r := (le_add_of_nonneg_left (mul_self_nonneg _)).trans hsum
    exact ⟨abs_le_of_sq_le_sq' (by rwa [sq, sq]) hr, abs_le_of_sq_le_sq' (by rwa [sq, sq]) hr, hsum⟩

/-! ## The loop of DRAWCIRCLE (R145, decision D28) -/

/-- A pass of the loop, on the machine's own update functions. -/
theorem CircleVisits.next {r x y d : Int} (h : CircleVisits r x y d) (hxy : y ≤ x) :
    CircleVisits r (circleNextX x d) (y + 1) (circleDecision x y d) := by
  unfold circleNextX circleDecision
  split
  case isTrue hd => exact .keepX x y d h hxy hd
  case isFalse hd => exact .stepX x y d h hxy hd

/-- Where the test holds and the bound allows a pass, the loop plots its eight points and goes on. -/
theorem circleLoop_of_test {x y : Int} (h : y ≤ x) (x0 y0 : Int) (n : Nat) (d : Int) :
    circleLoop x0 y0 (n + 1) x y d =
      octants x0 y0 x y ++ circleLoop x0 y0 n (circleNextX x d) (y + 1) (circleDecision x y d) := if_pos h

/-- Where the test fails the loop plots nothing, with every bound on its passes. -/
theorem circleLoop_of_exit {x y : Int} (h : x < y) (x0 y0 : Int) (n : Nat) (d : Int) : circleLoop x0 y0 n x y d = [] := by
  cases n with
  | zero => rfl
  | succ n => exact if_neg (Int.not_le.2 h)

/-- A pass does not move x to the right. -/
theorem circleNextX_le (x d : Int) : circleNextX x d ≤ x := by
  unfold circleNextX
  split <;> omega

/-- A bound that lets y pass x is as good as every larger one. -/
theorem circleLoop_eq_of_le (x0 y0 : Int) {n m : Nat} {x y : Int} (d : Int) (hn : x - y < n) (hm : n ≤ m) :
    circleLoop x0 y0 m x y d = circleLoop x0 y0 n x y d := by
  induction n generalizing m x y d with
  | zero => rw [circleLoop_of_exit (by omega), circleLoop_of_exit (by omega)]
  | succ n ih =>
    obtain ⟨m, rfl⟩ : ∃ k, m = k + 1 := ⟨m - 1, by omega⟩
    by_cases hxy : y ≤ x
    · have hx : circleNextX x d ≤ x := circleNextX_le x d
      rw [circleLoop_of_test hxy, circleLoop_of_test hxy, ih _ (by omega) (by omega)]
    · rw [circleLoop_of_exit (Int.not_le.1 hxy), circleLoop_of_exit (Int.not_le.1 hxy)]

/-- y counts the passes, from 0. -/
theorem CircleVisits.y_nonneg {r x y d : Int} (h : CircleVisits r x y d) : 0 ≤ y := by
  induction h with
  | start => exact le_rfl
  | keepX _ _ _ _ _ _ ih | stepX _ _ _ _ _ _ ih => omega

/-- x starts at the radius and never grows. -/
theorem CircleVisits.x_le {r x y d : Int} (h : CircleVisits r x y d) : x ≤ r := by
  induction h with
  | start => exact le_rfl
  | keepX _ _ _ _ _ _ ih | stepX _ _ _ _ _ _ ih => omega

/-- A test is the loop's first, or it comes after a pass, which began with y ≤ x and moved each of the two by at most one. -/
theorem CircleVisits.first_or_passed {r x y d : Int} (h : CircleVisits r x y d) :
    (x = r ∧ y = 0 ∧ d = 3 - 2 * r) ∨ (0 < y ∧ y ≤ x + 2 ∧ y ≤ r + 1) := by
  cases h with
  | start => exact .inl ⟨rfl, rfl, rfl⟩
  | keepX x y d h hxy | stepX x y d h hxy =>
    have hx : x ≤ r := h.x_le
    have hy : 0 ≤ y := h.y_nonneg
    omega

/-- From every test the loop comes to one that fails, because every pass brings y closer to x. -/
theorem CircleVisits.exists_exit {r x y d : Int} (h : CircleVisits r x y d) :
    ∃ x' y' d', CircleVisits r x' y' d' ∧ x' < y' := by
  by_cases hxy : y ≤ x
  · have hx : circleNextX x d ≤ x := circleNextX_le x d
    exact (h.next hxy).exists_exit
  · exact ⟨x, y, d, h, Int.not_le.1 hxy⟩
termination_by (x + 1 - y).toNat
decreasing_by omega

/-- The machine's loop, from a test that the relation comes to, plots points of the relation's passes only. -/
theorem CircleVisits.onCircle_of_mem {r x y d : Int} (h : CircleVisits r x y d) {x0 y0 u v : Int} {n : Nat}
    (hmem : (u, v) ∈ circleLoop x0 y0 n x y d) : OnCircle x0 y0 r u v := by
  induction n generalizing x y d with
  | zero => cases hmem
  | succ n ih =>
    by_cases hxy : y ≤ x
    · rw [circleLoop_of_test hxy, List.mem_append, mem_octants] at hmem
      rcases hmem with hoct | hrest
      · exact ⟨x, y, d, h, hxy, hoct⟩
      · exact ih (h.next hxy) hrest
    · rw [circleLoop_of_exit (Int.not_le.1 hxy)] at hmem
      cases hmem

/-- What the machine's loop plots from a test that the relation comes to, it plots from the start with y more passes. -/
theorem CircleVisits.circleLoop_subset {r x y d : Int} (h : CircleVisits r x y d) (x0 y0 : Int) :
    ∃ k : Nat, (k : Int) = y ∧ ∀ n, circleLoop x0 y0 n x y d ⊆ circleLoop x0 y0 (n + k) r 0 (3 - 2 * r) := by
  induction h with
  | start => exact ⟨0, rfl, fun _ => List.Subset.refl _⟩
  | keepX x y d _ hxy hd ih | stepX x y d _ hxy hd ih =>
    obtain ⟨k, rfl, hsub⟩ := ih
    refine ⟨k + 1, rfl, fun n => ?_⟩
    have hpass := hsub (n + 1)
    simp only [circleLoop_of_test hxy, circleNextX, circleDecision, hd, ↓reduceIte] at hpass
    rw [Nat.add_right_comm] at hpass
    exact List.Subset.trans (List.subset_append_right _ _) hpass

/-- The machine's bounded loop plots exactly the points of the passes of R145's loop. -/
theorem mem_circleCells (x0 y0 r u v : Int) : (u, v) ∈ circleCells x0 y0 r ↔ OnCircle x0 y0 r u v := by
  refine ⟨CircleVisits.start.onCircle_of_mem, ?_⟩
  rintro ⟨x, y, d, h, hxy, hoct⟩
  obtain ⟨k, rfl, hsub⟩ := h.circleLoop_subset x0 y0
  have hx : x ≤ r := h.x_le
  obtain ⟨n, hn⟩ : ∃ n, (r + 1).toNat = n + 1 + k := ⟨(r - k).toNat, by omega⟩
  rw [circleCells, hn]
  apply hsub (n + 1)
  rw [circleLoop_of_test hxy, List.mem_append, mem_octants]
  exact .inl hoct

/-- A circle lies in its own bounding box: while the test holds, 0 ≤ y ≤ x ≤ r. -/
theorem OnCircle.mem_box {x0 y0 r u v : Int} (h : OnCircle x0 y0 r u v) :
    (-r ≤ u - x0 ∧ u - x0 ≤ r) ∧ (-r ≤ v - y0 ∧ v - y0 ≤ r) := by
  obtain ⟨x, y, d, h, hxy, hoct⟩ := h
  have hy : 0 ≤ y := h.y_nonneg
  have hx : x ≤ r := h.x_le
  omega

/-! ## The decision value of DRAWCIRCLE (R145, R149) -/

/-- The decision value at (x, y) in closed form: how far the two cells that the pass chooses between, (x, y + 1) and
(x − 1, y + 1), lie outside the circle, in squared distance and taken together. -/
def midpointDecision (r x y : Int) : Int := (x ^ 2 + (y + 1) ^ 2 - r ^ 2) + ((x - 1) ^ 2 + (y + 1) ^ 2 - r ^ 2)

theorem CircleVisits.decision_eq {r x y d : Int} (h : CircleVisits r x y d) : d = midpointDecision r x y := by
  induction h with
  | start => unfold midpointDecision; ring
  | keepX x y d _ _ _ ih | stepX x y d _ _ _ ih => rw [ih]; unfold midpointDecision; ring

/-- While the test holds, d is at most 4y + 3; the last pass can leave a little more. -/
theorem CircleVisits.decision_le {r x y d : Int} (h : CircleVisits r x y d) : d ≤ 4 * y + 3 + 4 * max 0 (y - x) := by
  induction h with
  | start => omega
  | keepX | stepX => omega

/-- R149's enumeration, for the few radii and points where the bound of `CircleVisits.decision_le` is above 343. -/
theorem midpointDecision_le_of_mem_box : ∀ y ∈ run 84 8, ∀ x ∈ run 82 14, ∀ r ∈ run 118 10, y ≤ x + 2 →
    midpointDecision r x y ≤ 4 * y + 3 + 4 * max 0 (y - x) → midpointDecision r x y ≤ 343 := by
  decide +kernel

/-- The points of every other circle that its field can spell lie outside that box or meet a smaller bound. -/
theorem midpointDecision_le {r x y : Int} (hr : r ≤ 127) (hx : x ≤ r) (hy : 0 ≤ y) (hyx : y ≤ x + 2)
    (h : midpointDecision r x y ≤ 4 * y + 3 + 4 * max 0 (y - x)) : midpointDecision r x y ≤ 343 := by
  by_contra hlarge
  have hy84 : 84 ≤ y := by omega
  have hcircle : x * (x - 1) + y * y ≤ r * r + 4 := by
    have hbound : midpointDecision r x y ≤ 4 * y + 11 := by omega
    unfold midpointDecision at hbound
    linarith
  have hr118 : 118 ≤ r := by nlinarith
  have hy91 : y ≤ 91 := by nlinarith
  have hx95 : x ≤ 95 := by nlinarith
  exact hlarge (midpointDecision_le_of_mem_box y ((mem_run ..).2 ⟨hy84, by omega⟩) x ((mem_run ..).2 ⟨by omega, by omega⟩) r
    ((mem_run ..).2 ⟨hr118, by omega⟩) hyx h)

/-- A pass on the branch that can lower d. At the largest x, which is r, d was still below 1 until y had grown to about the root
of r; further left, until it had grown more. The least value is that of r = 121, at (121, 10). -/
theorem le_midpointDecision_step {r x y : Int} (hr : r ≤ 127) (hx : x ≤ r) (hx0 : 0 ≤ x) (hy : 0 ≤ y)
    (h : 0 < midpointDecision r x y) : -433 ≤ midpointDecision r x y + 4 * (y - x) + 10 := by
  rcases hx.eq_or_lt with rfl | hlt
  · have hd : midpointDecision x x y = 2 * (y + 1) ^ 2 - 2 * x + 1 := by unfold midpointDecision; ring
    have hgrown : x ≤ (y + 1) ^ 2 := by omega
    rw [hd]
    rcases le_or_gt y 10 with hy10 | hy11
    · have hsmall : y * (y + 1) ≤ 10 * 11 := mul_le_mul hy10 (by omega) (by omega) (by decide)
      linarith
    · have hlarge : 11 * 11 ≤ y * y := mul_self_le_mul_self (by decide) hy11
      linarith
  · have hgrown : 3 * x + 1 ≤ (y + 1) ^ 2 := by
      unfold midpointDecision at h
      nlinarith
    rcases le_or_gt x 110 with hx110 | hx111
    · omega
    · have hy18 : 18 ≤ y := by nlinarith
      omega

/-- R149's range of the decision value. -/
theorem CircleVisits.decision_mem {r x y d : Int} (hr : FitsByte r) (h : CircleVisits r x y d) : -433 ≤ d ∧ d ≤ 343 := by
  constructor
  · induction h with
    | start => omega
    | keepX x y d h _ _ ih =>
      have := h.y_nonneg
      omega
    | stepX x y d h hxy hd =>
      have hy := h.y_nonneg
      rw [h.decision_eq] at hd ⊢
      exact le_midpointDecision_step hr.2 h.x_le (hy.trans hxy) hy (Int.not_le.1 hd)
  · rcases h.first_or_passed with hfirst | ⟨hy, hyx, -⟩
    · omega
    · rw [h.decision_eq]
      exact midpointDecision_le hr.2 h.x_le hy.le hyx (h.decision_eq ▸ h.decision_le)

end Sys2Proof.Machine
end

section
namespace Sys2Proof.Proofs
open Sys2Proof Sys2Proof.Machine

/-! ## The shapes (45_shapes.md) -/

/-- Settles O41: DRAWHLINE is a shape on the run's cells (R141). -/
theorem drawHLineEffect : Obligations.DrawHLineEffect := by
  refine ⟨fun w hw => ?_, fun x y p c s => ⟨_, exec_drawHLine x y p c s, shape_respond_effect s (mem_hLineCells x y p) c⟩⟩
  exact decode_of_masked (r := ⟨.drawHLine, "DRAWHLINE", _, _⟩) (by decide) hw

/-- Settles O42: DRAWVLINE is a shape on the run's cells (R142). -/
theorem drawVLineEffect : Obligations.DrawVLineEffect := by
  refine ⟨fun w hw => ?_, fun x y p c s => ⟨_, exec_drawVLine x y p c s, shape_respond_effect s (mem_vLineCells x y p) c⟩⟩
  exact decode_of_masked (r := ⟨.drawVLine, "DRAWVLINE", _, _⟩) (by decide) hw

/-- Settles O43: DRAWRECT is a shape on the four edges' cells (R143). -/
theorem drawRectEffect : Obligations.DrawRectEffect := by
  refine ⟨fun w hw => ?_, fun x y p q c s => ⟨_, exec_drawRect x y p q c s, shape_respond_effect s (mem_rectCells x y p q) c⟩⟩
  exact decode_of_masked (r := ⟨.drawRect, "DRAWRECT", _, _⟩) (by decide) hw

/-- Settles O44: FILLRECT is a shape on the box's cells (R144). -/
theorem fillRectEffect : Obligations.FillRectEffect := by
  refine ⟨fun w hw => ?_,
    fun x y p q c s => ⟨_, exec_fillRect x y p q c s, shape_respond_effect s (mem_fillRectCells x y p q) c⟩⟩
  exact decode_of_masked (r := ⟨.fillRect, "FILLRECT", _, _⟩) (by decide) hw

/-- Settles O45: DRAWCIRCLE is a shape on the cells of the machine's bounded loop, which are those of the loop as a relation
(R145). -/
theorem drawCircleEffect : Obligations.DrawCircleEffect := by
  refine ⟨fun w hw => ?_,
    fun x0 y0 r c s => ⟨_, exec_drawCircle x0 y0 r c s, shape_respond_effect s (mem_circleCells x0 y0 r) c⟩⟩
  exact decode_of_masked (r := ⟨.drawCircle, "DRAWCIRCLE", _, _⟩) (by decide) hw

/-- Settles O46: FILLCIRCLE is a shape on the dense scan's cells, and the scan's box leaves out no cell of the disc (R146). -/
theorem fillCircleEffect : Obligations.FillCircleEffect := by
  refine ⟨fun w hw => ?_,
    fun x0 y0 r c s => ⟨_, exec_fillCircle x0 y0 r c s, shape_respond_effect s (mem_discCells_iff x0 y0 r) c⟩⟩
  exact decode_of_masked (r := ⟨.fillCircle, "FILLCIRCLE", _, _⟩) (by decide) hw

/-- Settles O47: what a cell reads after a cell set is plotted depends only on whether some in-range member has that cell
(R148). -/
theorem plottingOrderDoesNotMatter : Obligations.PlottingOrderDoesNotMatter := by
  intro cells₁ cells₂ c s hmem a
  have hplotted : (∃ p ∈ cells₁, InRange p.1 p.2 ∧ a = idx p.1 p.2) ↔ ∃ p ∈ cells₂, InRange p.1 p.2 ∧ a = idx p.1 p.2 :=
    exists_congr fun p => and_congr_left' (hmem p)
  rw [State.plotAll_readCell, State.plotAll_readCell]
  by_cases h : ∃ p ∈ cells₁, InRange p.1 p.2 ∧ a = idx p.1 p.2
  · rw [Memory.read_plotAll_mem cells₁ c s.fb a h, Memory.read_plotAll_mem cells₂ c s.fb a (hplotted.1 h)]
  · rw [Memory.read_plotAll_not_mem cells₁ c s.fb a h, Memory.read_plotAll_not_mem cells₂ c s.fb a (mt hplotted.2 h)]

/-- Settles O48: every pass brings y closer to x, so the loop stops by itself within any bound of r + 1 passes or more, and
comes to a test that fails; the pass before it began with y ≤ x ≤ r. -/
theorem circleLoopEnds : Obligations.CircleLoopEnds := by
  intro x0 y0 r
  refine ⟨fun n hn => ?_, ?_, fun x y d h hxy => ?_⟩
  · exact circleLoop_eq_of_le x0 y0 _ (by omega) hn
  · obtain ⟨x, y, d, h, hexit⟩ := (CircleVisits.start (r := r)).exists_exit
    have hpassed := h.first_or_passed
    exact ⟨x, y, d, h, hexit, by omega⟩
  · have hx : x ≤ r := h.x_le
    exact ⟨h.y_nonneg, hxy.trans hx, hx⟩

/-- Settles O49: each shape lies in its own box, whose operands are those of an 8-bit field; the decision value is bounded in
closed form; and an offset of the scan is at most 127 either way (R149). -/
theorem shapeArithmeticFitsDatapath : Obligations.ShapeArithmeticFitsDatapath := by
  refine ⟨fun x y p q hx hy hp hq c hc => ?_, fun r x y d hr h => h.decision_mem hr, fun r dx dy hr hdx hdy => ?_⟩
  · obtain ⟨u, v⟩ := c
    simp only [List.mem_append, mem_hLineCells, mem_vLineCells, mem_rectCells, mem_fillRectCells, mem_circleCells,
      mem_discCells] at hc
    rcases hc with (straight | circle) | disc
    · omega
    · have hbox := circle.mem_box
      omega
    · omega
  · rw [mem_symmetricRun] at hdx hdy
    have hx : dx * dx ≤ 127 * 127 := mul_self_le_mul_self_of_le_of_neg_le (by omega) (by omega)
    have hy : dy * dy ≤ 127 * 127 := mul_self_le_mul_self_of_le_of_neg_le (by omega) (by omega)
    omega

end Sys2Proof.Proofs
end

section
namespace Sys2Proof.Machine

/-! ## A colour as its three bytes (R170–R172) -/

/-- The shifted channels do not overlap, so packing is appending, the red channel on top. -/
theorem packColor_eq_append (r g b : Byte) : packColor r g b = r ++ g ++ b := by
  apply BitVec.eq_of_getLsbD_eq
  intro i hi
  simp only [packColor, BitVec.getLsbD_or, BitVec.getLsbD_shiftLeft, BitVec.getLsbD_setWidth, BitVec.getLsbD_append]
  interval_cases i <;> simp

theorem packColor_toNat (r g b : Byte) : (packColor r g b).toNat = 65536 * r.toNat + 256 * g.toNat + b.toNat := by
  have hbase256 : (packColor r g b).toNat = 256 * (256 * r.toNat + g.toNat) + b.toNat := by
    rw [packColor_eq_append, append_byte_toNat, append_byte_toNat]
  omega

@[simp] theorem unpackColor_packColor (r g b : Byte) : unpackColor (packColor r g b) = (r, g, b) := by
  have hred : (r ++ g ++ b).extractLsb' 16 8 = r := by
    rw [BitVec.extractLsb'_append_eq_of_le (by decide), BitVec.extractLsb'_append_eq_left]
  have hgreen : (r ++ g ++ b).extractLsb' 8 8 = g := by
    rw [BitVec.extractLsb'_append_eq_of_le (by decide), BitVec.extractLsb'_append_eq_right]
  have hblue : (r ++ g ++ b).extractLsb' 0 8 = b := BitVec.extractLsb'_append_eq_right
  rw [packColor_eq_append, unpackColor, hred, hgreen, hblue]

/-- Adjacent bytes of a colour, appended, are the bits that they cover. -/
theorem packColor_unpackColor (c : Color) : packColor (unpackColor c).1 (unpackColor c).2.1 (unpackColor c).2.2 = c := by
  calc packColor (unpackColor c).1 (unpackColor c).2.1 (unpackColor c).2.2
      = c.extractLsb' 16 8 ++ c.extractLsb' 8 8 ++ c.extractLsb' 0 8 := packColor_eq_append ..
    _ = c.extractLsb' 8 16 ++ c.extractLsb' 0 8 := by rw [BitVec.extractLsb'_append_extractLsb'_eq_extractLsb' (by decide)]
    _ = c.extractLsb' 0 24 := BitVec.extractLsb'_append_extractLsb'_eq_extractLsb' (by decide)
    _ = c := BitVec.extractLsb'_eq_self

/-- A colour is determined by its components. -/
theorem color_ext {c d : Color} (h : ∀ k : Component, colorComponent c k = colorComponent d k) : c = d := by
  have hunpacked : unpackColor c = unpackColor d := Prod.ext (h 0) (Prod.ext (h 1) (h 2))
  rw [← packColor_unpackColor c, ← packColor_unpackColor d, hunpacked]

/-! ## One channel of a blend (R173, R174) -/

/-- The weights 255 − t and t add up to 255, so the quotient is at most 255 and fits the 8 bits of the result. -/
theorem blendChannel_toNat (a b t : Byte) :
    (blendChannel a b t).toNat = (a.toNat * (255 - t.toNat) + b.toNat * t.toNat) / 255 := by
  have ha : a.toNat ≤ 255 := Nat.le_of_lt_succ a.isLt
  have hb : b.toNat ≤ 255 := Nat.le_of_lt_succ b.isLt
  have ht : t.toNat ≤ 255 := Nat.le_of_lt_succ t.isLt
  have hsum : a.toNat * (255 - t.toNat) + b.toNat * t.toNat ≤ 255 * 255 :=
    calc a.toNat * (255 - t.toNat) + b.toNat * t.toNat
        ≤ 255 * (255 - t.toNat) + 255 * t.toNat := Nat.add_le_add (Nat.mul_le_mul_right _ ha) (Nat.mul_le_mul_right _ hb)
      _ = 255 * 255 := by rw [← Nat.mul_add, Nat.sub_add_cancel ht]
  rw [blendChannel, BitVec.toNat_ofNat, Nat.mod_eq_of_lt (Nat.lt_succ_of_le (Nat.div_le_of_le_mul hsum))]

@[simp] theorem blendChannel_zero (a b : Byte) : blendChannel a b 0#8 = a := by
  apply BitVec.eq_of_toNat_eq
  rw [blendChannel_toNat, BitVec.toNat_zero, Nat.sub_zero, Nat.mul_zero, Nat.add_zero, Nat.mul_div_cancel _ (by decide)]

/-- At 255 − t the two weights have changed places. -/
theorem blendChannel_reverse (a b t : Byte) : blendChannel b a (255#8 - t) = blendChannel a b t := by
  have ht : t.toNat ≤ 255 := Nat.le_of_lt_succ t.isLt
  have hweight : (255#8 - t).toNat = 255 - t.toNat := BitVec.toNat_sub_of_le (BitVec.le_def.2 ht)
  apply BitVec.eq_of_toNat_eq
  rw [blendChannel_toNat, blendChannel_toNat, hweight, Nat.sub_sub_self ht, Nat.add_comm]

@[simp] theorem blendChannel_max (a b : Byte) : blendChannel a b 255#8 = b := by
  rw [← blendChannel_reverse]
  exact blendChannel_zero b a

@[simp] theorem blendChannel_self (a t : Byte) : blendChannel a a t = a := by
  have ht : t.toNat ≤ 255 := Nat.le_of_lt_succ t.isLt
  apply BitVec.eq_of_toNat_eq
  rw [blendChannel_toNat, ← Nat.mul_add, Nat.sub_add_cancel ht, Nat.mul_div_cancel _ (by decide)]

/-- A blend is one blend of each component (R173). -/
@[simp] theorem colorComponent_blendColor (c1 c2 : Color) (t : Byte) (k : Component) :
    colorComponent (blendColor c1 c2 t) k = blendChannel (colorComponent c1 k) (colorComponent c2 k) t := by
  have hunpacked : unpackColor (blendColor c1 c2 t) =
      (blendChannel (colorComponent c1 0) (colorComponent c2 0) t,
        blendChannel (colorComponent c1 1) (colorComponent c2 1) t,
        blendChannel (colorComponent c1 2) (colorComponent c2 2) t) := unpackColor_packColor ..
  match k with
  | 0 => exact congrArg Prod.fst hunpacked
  | 1 => exact congrArg (fun p => p.2.1) hunpacked
  | 2 => exact congrArg (fun p => p.2.2) hunpacked

end Sys2Proof.Machine
end

section
namespace Sys2Proof.Proofs
open Sys2Proof Sys2Proof.Machine

/-! ## Colours (46_color.md) -/

/-- Settles O50: the components are the model's bytes of a colour by definition (R171), and packing appends the bytes that
unpacking cuts (R172). -/
theorem packUnpackRoundTrip : Obligations.PackUnpackRoundTrip :=
  ⟨fun _ => ⟨rfl, rfl, rfl, rfl⟩, unpackColor_packColor, packColor_unpackColor⟩

/-- Settles O51: packing appends the three bytes, which is reading them in base 256 (R170). -/
theorem packColorValue : Obligations.PackColorValue := packColor_toNat

/-- Settles O52: a blend's component is the blend of the components, and its quotient fits 8 bits (R173). -/
theorem blendIsPerComponent : Obligations.BlendIsPerComponent := by
  intro c1 c2 t k
  rw [colorComponent_blendColor, blendChannel_toNat]

/-- Settles O53: each property of R174 is one of every component's blend, and the components determine the colour. -/
theorem blendProperties : Obligations.BlendProperties := by
  intro c1 c2 t
  refine ⟨color_ext fun k => ?_, color_ext fun k => ?_, color_ext fun k => ?_, color_ext fun k => ?_⟩
  · rw [colorComponent_blendColor, blendChannel_zero]
  · rw [colorComponent_blendColor, blendChannel_max]
  · rw [colorComponent_blendColor, blendChannel_self]
  · rw [colorComponent_blendColor, colorComponent_blendColor, blendChannel_reverse]

end Sys2Proof.Proofs
end

section
namespace Sys2Proof.Machine

/-! ## Channels, their lines and their outputs (R182–R186) -/

/-- R183's inverse: a channel is the channel of its own row, column and component. -/
theorem channelId_row_column_component (i : ChannelId) :
    channelId (channelColumn i) (channelRow i) (channelComponent i) = i := by
  apply Fin.ext
  simp only [channelId, channelColumn, channelRow, channelComponent]
  omega

/-- No line of the multiplexer truncates what R184 puts on it: 3 bits hold a row and a column, and 2 bits a component. -/
theorem muxLines_toNat (i : ChannelId) (v : Byte) :
    (muxLines (i, v)).rowAddr.toNat = i.val / 24 ∧ (muxLines (i, v)).colAddr.toNat = i.val % 24 / 3 ∧
      (muxLines (i, v)).csel.toNat = i.val % 3 :=
  ⟨Nat.mod_eq_of_lt (channelRow i).isLt, Nat.mod_eq_of_lt (channelColumn i).isLt,
    Nat.mod_eq_of_lt ((channelComponent i).isLt.trans (by decide))⟩

/-- A defined channel shows `DUTY_MAP` of its intensity at the latched resolution (R186). -/
theorem physicalDuty_of_defined {s : State} {i : ChannelId} {v : Byte} {r : Nat} (hch : s.ch.get i = some v)
    (hres : s.pwmRes = some r) (n : Nat) : s.physicalDuty n i = Config.dutyMap v r := by
  simp only [State.physicalDuty, hch, hres]

/-- A Begun block has latched the configured resolution (R24, R25). -/
theorem Inv.pwmRes_of_begun {s : State} (h : Inv s) (hb : s.begun = true) : s.pwmRes = some Config.pwmResolution := by
  obtain ⟨-, hpwm⟩ := Bool.and_eq_true_iff.1 hb
  rw [h.latched_res, if_pos hpwm]

end Sys2Proof.Machine
end

section
namespace Sys2Proof.Proofs
open Sys2Proof Sys2Proof.Machine

/-! ## The PWM driver and the multiplexer (47_pwm_mux.md) -/

/-- Settles O34: `Emit` is one write to the channel registers (R182), and its lines are wide enough for the channel's row,
column and component (R184). -/
theorem emitWritesOneChannel : Obligations.EmitWritesOneChannel := by
  intro s i v
  obtain ⟨hrow, hcol, hcsel⟩ := muxLines_toNat i v
  refine ⟨rfl, ?_, fun j hj => ?_, hrow, hcol, hcsel, rfl⟩
  · rw [State.emit_ch, emitChannel_get, if_pos rfl]
    exact if_congr Bool.and_eq_true_iff rfl rfl
  · rw [State.emit_ch, emitChannel_get, if_neg hj.symm]

/-- Settles O55: after BEGIN the channels hold the last frame's writes and the latch the configured resolution, both by the
invariant, and a defined channel's duty cycle is a function of these two (R185, R186). -/
theorem outputsShowLastFrame : Obligations.OutputsShowLastFrame := by
  intro s hinv hb
  obtain ⟨f, hlast, -, hwrites⟩ := hinv.channels_begun hb
  exact ⟨f, hlast, fun w n hw => physicalDuty_of_defined (hwrites w hw) (hinv.pwmRes_of_begun hb) n⟩

/-- Settles O54: the numbering is the model's by definition, and dividing by 24 and by 3 takes it apart (R183). -/
theorem channelNumbering : Obligations.ChannelNumbering :=
  ⟨fun _ _ _ => rfl, fun i => ⟨rfl, rfl, rfl, channelId_row_column_component i⟩⟩

end Sys2Proof.Proofs
end

section
namespace Sys2Proof.Machine

/-! ## A step never faults (R200) -/

/-- With no word on the port a step holds the state (log entry 3). -/
theorem step_idle {s : State} (h : s.pending = none) : step s = .next s := by
  simp only [step, runPending, h]

/-- A step is idle, refuses the word on the port, or completes its command. -/
theorem step_ne_fault (s : State) (f : Fault) : step s ≠ .fault f := by
  cases hp : s.pending with
  | none =>
    rw [step_idle hp]
    nofun
  | some w =>
    cases hd : decode w with
    | error r =>
      rw [step_refused hp hd]
      nofun
    | ok i =>
      obtain ⟨t, ht, -⟩ := exec_completes i s.takeCommand
      rw [step_command hp hd, ht]
      nofun

/-! ## The refusal mark along a stream (R202) -/

/-- After a step the mark is clear exactly when it was before and the word on the port, if any, decodes. -/
theorem afterStep_refusalMark_eq_false_iff (s : State) :
    (afterStep s).refusalMark = false ↔
      s.refusalMark = false ∧ ∀ v, s.pending = some v → ∃ i, decode v = .ok i := by
  cases hp : s.pending with
  | none => simp [afterStep_idle hp]
  | some w =>
    cases hd : decode w with
    | error r => simp [afterStep_refused hp hd, hd]
    | ok i =>
      obtain ⟨t, ht, -⟩ := exec_completes i s.takeCommand
      simp [afterStep_command hp hd ht, exec_refusalMark ht, hd]

/-- After the host's next word it is clear exactly when it was after the word before it and this one decodes. -/
theorem afterCommand_refusalMark_eq_false_iff (s : State) (w : CmdWord) :
    (afterCommand s w).refusalMark = false ↔ (afterStep s).refusalMark = false ∧ ∃ i, decode w = .ok i := by
  simp [afterCommand, afterStep_refusalMark_eq_false_iff ((afterStep s).withCommand w)]

/-- From a state whose port is free, a sequence of words leaves the mark clear exactly when it was clear and each one decodes. -/
theorem afterStream_refusalMark_eq_false_iff (ws : List CmdWord) {s : State} (hp : s.pending = none) :
    (afterStream s ws).refusalMark = false ↔ s.refusalMark = false ∧ ∀ v ∈ ws, ∃ i, decode v = .ok i := by
  induction ws generalizing s with
  | nil => simp [afterStream]
  | cons w ws ih =>
    calc (afterStream (afterCommand s w) ws).refusalMark = false
        ↔ (afterCommand s w).refusalMark = false ∧ ∀ v ∈ ws, ∃ i, decode v = .ok i := ih (afterStep_pending _)
      _ ↔ s.refusalMark = false ∧ ∀ v ∈ w :: ws, ∃ i, decode v = .ok i := by
        rw [afterCommand_refusalMark_eq_false_iff, afterStep_idle hp, List.forall_mem_cons, and_assoc]

/-! ## What a command does to FB, BRIGHT and the trace, from FB and BRIGHT alone (R222) -/

/-- The framebuffer that a command leaves, from the one that it finds. -/
def fbAfter (m : Memory) : Instr → Memory
  | .begin | .clear => m.fill black
  | .clearColor c | .fillColor c => m.fill c
  | .setPixel x y c => m.plot x y c
  | .drawHLine x y n c => m.plotAll (hLineCells x y n) c
  | .drawVLine x y n c => m.plotAll (vLineCells x y n) c
  | .drawRect x y w h c => m.plotAll (rectCells x y w h) c
  | .fillRect x y w h c => m.plotAll (fillRectCells x y w h) c
  | .drawCircle x y r c => m.plotAll (circleCells x y r) c
  | .fillCircle x y r c => m.plotAll (discCells x y r) c
  | .update | .setBright _ | .getBright | .getPixel _ _ => m

/-- The brightness that a command leaves, from the one that it finds. -/
def brightAfter (b : Byte) : Instr → Byte
  | .setBright v => v
  | _ => b

theorem fillAll_respond_fb (s : State) (c : Color) (r : RespWord) : ((s.fillAll c).respond r).fb = s.fb.fill c := by
  rw [State.respond_fb, State.fillAll_fb]

theorem shape_respond_fb (s : State) (cells : List Coord) (c : Color) (r : RespWord) :
    ((s.shape cells c).respond r).fb = s.fb.plotAll cells c := by
  rw [State.respond_fb, State.shape_fb]

theorem exec_completes_fb (s : State) : ∀ i : Instr, ∃ t, exec i s = .next t ∧ t.fb = fbAfter s.fb i
  | .begin => ⟨_, exec_begin s, fillAll_respond_fb _ black 1⟩
  | .update => ⟨_, exec_update s, (State.respond_fb _ 0).trans (State.refresh_fb s)⟩
  | .setBright v => ⟨_, exec_setBright v s, rfl⟩
  | .getBright => ⟨_, exec_getBright s, rfl⟩
  | .setPixel x y c => ⟨_, exec_setPixel x y c s, State.plot_fb s x y c⟩
  | .getPixel x y => ⟨_, exec_getPixel x y s, rfl⟩
  | .clear => ⟨_, exec_clear s, fillAll_respond_fb s black 0⟩
  | .clearColor c => ⟨_, exec_clearColor c s, fillAll_respond_fb s c 0⟩
  | .fillColor c => ⟨_, exec_fillColor c s, fillAll_respond_fb s c 0⟩
  | .drawHLine x y n c => ⟨_, exec_drawHLine x y n c s, shape_respond_fb s _ c 0⟩
  | .drawVLine x y n c => ⟨_, exec_drawVLine x y n c s, shape_respond_fb s _ c 0⟩
  | .drawRect x y w h c => ⟨_, exec_drawRect x y w h c s, shape_respond_fb s _ c 0⟩
  | .fillRect x y w h c => ⟨_, exec_fillRect x y w h c s, shape_respond_fb s _ c 0⟩
  | .drawCircle x y r c => ⟨_, exec_drawCircle x y r c s, shape_respond_fb s _ c 0⟩
  | .fillCircle x y r c => ⟨_, exec_fillCircle x y r c s, shape_respond_fb s _ c 0⟩

theorem exec_fb {i : Instr} {s t : State} (h : exec i s = .next t) : t.fb = fbAfter s.fb i := by
  obtain ⟨u, hu, hfb⟩ := exec_completes_fb s i
  obtain rfl : u = t := Host.Outcome.next.inj (hu.symm.trans h)
  exact hfb

theorem exec_bright {i : Instr} {s t : State} (h : exec i s = .next t) : t.bright = brightAfter s.bright i := by
  rcases Proofs.onlySetBrightWritesBrightness i s t h with ⟨v, rfl, hwritten⟩ | ⟨hset, hkept⟩
  · exact hwritten
  · rw [hkept]
    cases i with
    | setBright v => exact absurd rfl (hset v)
    | _ => rfl

/-- The frame that a command records, if it refreshes, carries the writes of the framebuffer and the brightness that it leaves. -/
theorem exec_log {i : Instr} {s t : State} (h : exec i s = .next t) :
    t.log = s.log ++ if i.opcode.refreshes then [⟨t.begun, rasterWrites t.fb t.bright⟩] else [] := by
  cases hi : i.opcode.refreshes with
  | false =>
    obtain ⟨hlog, -⟩ := exec_quiet_outputs hi h
    simp [hlog]
  | true =>
    obtain ⟨u, r, hu, hlog⟩ := exec_refreshing s hi
    obtain rfl : u.refresh.respond r = t := Host.Outcome.next.inj (hu.symm.trans h)
    simp [hlog]

/-- No answer depends on more than FB and BRIGHT (R67). -/
theorem response_congr {s₁ s₂ : State} (hfb : s₁.fb = s₂.fb) (hbright : s₁.bright = s₂.bright) (i : Instr) :
    response s₁ i = response s₂ i := by
  cases i with
  | getPixel x y => simp only [response, State.readCell, hfb]
  | getBright => simp only [response, hbright]
  | _ => rfl

end Sys2Proof.Machine
end

section
namespace Sys2Proof.Proofs
open Sys2Proof Sys2Proof.Machine

/-! ## Exceptions (60_exceptions.md) -/

/-- Settles O10: an idle step holds the state, and at reset the port is free (R220). -/
theorem idleStepHoldsEverything : Obligations.IdleStepHoldsEverything :=
  ⟨fun _ hp => step_idle hp, step_idle rfl⟩

/-- Settles O11: every command completes with one of the effects, and a step is idle, a refusal or a command (R200). -/
theorem commandsNeverStop : Obligations.CommandsNeverStop := by
  refine ⟨fun i s => ?_, step_ne_fault⟩
  obtain ⟨t, ht, -⟩ := exec_completes i s
  exact ⟨t, ht⟩

/-- Settles O58: the first word waits for the step of the word on the port, and after it the port is free before each of the
others; a step sets the mark when its word does not decode and keeps it otherwise (R202). -/
theorem refusalMarkTellsRefusedWords : Obligations.RefusalMarkTellsRefusedWords := by
  intro s w ws
  have hfree : (afterCommand s w).pending = none := afterStep_pending _
  refine (afterStream_refusalMark_eq_false_iff ws hfree).trans ?_
  rw [afterCommand_refusalMark_eq_false_iff, afterStep_refusalMark_eq_false_iff, List.forall_mem_cons, and_assoc, and_assoc]

/-! ## Reset and hazards (70_reset_and_hazards.md) -/

/-- Settles O57: the framebuffer, the brightness and the answer that a command leaves are functions of FB and BRIGHT, and a
frame's writes are a function of the first two (R222). -/
theorem effectsIgnoreConfiguration : Obligations.EffectsIgnoreConfiguration := by
  intro i s₁ s₂ hfb hbright
  obtain ⟨t₁, h₁, -⟩ := exec_completes i s₁
  obtain ⟨t₂, h₂, -⟩ := exec_completes i s₂
  have hfb' : t₁.fb = t₂.fb := by rw [exec_fb h₁, exec_fb h₂, hfb]
  have hbright' : t₁.bright = t₂.bright := by rw [exec_bright h₁, exec_bright h₂, hbright]
  refine ⟨t₁, t₂, _, _, h₁, h₂, hfb', hbright', ?_, exec_log h₁, exec_log h₂, ?_⟩
  · rw [exec_resp h₁, exec_resp h₂, response_congr hfb hbright]
  · rw [hfb', hbright']
    split <;> rfl

/-- Settles O15: each value is the one that the reset state is built from; an unlisted cell reads as black, and every channel of
a block that is not Begun is ⊥ by the invariant (R220). -/
theorem resetValues : Obligations.ResetValues :=
  ⟨fun _ _ => rfl, rfl, resetMeetsInvariant.channels_unbegun rfl, rfl, rfl, rfl, rfl, rfl, rfl, rfl, fun _ => rfl⟩

end Sys2Proof.Proofs
end
